-- ==== Sys2Proof/Word.lean ====
section
/-!
DEFINITION. The plain types of the values that cross the scheduler's interfaces (spec/00_scope.md R6, R7; decisions D8 to
D11 and D16 of spec/92_eei_decisions.md).

Every number of the scheduler is unsigned (R7).  `ADDR_W` and `IRQ_W` are OPEN (R6): they are build parameters of the
machine, held in State, so an address and a request mask are natural numbers below `2^ADDR_W` and `2^IRQ_W`, and what
comes in through a port is taken at the port's width (log 1).  A word that has bit fields is a bit vector, at any
`ADDR_W`.  The values the scheduler only copies (`KEY_W`, `FB`, `FAULT_W`) are natural numbers (log 2), as the cycle
counter is (D10).
-/

namespace Sys2Proof

/-- The default of `ADDR_W` (R6, D8): the width of a CPU instruction address. -/
def defaultAddrW : Nat := 32

/-- The default of `IRQ_W` (R6, D9): the number of interrupt request bits. -/
def defaultIrqW : Nat := 16

/-- A CPU instruction address: a breakpoint entry, a next-pc value, the `data` field of a response (R41, R64); below
`2^ADDR_W`. -/
abbrev Addr := Nat

/-- An interrupt request bitmask, one bit per interrupt source (R11, R225): bit `i` of the number; below `2^IRQ_W`. -/
abbrev IrqMask := Nat

/-- A command word at a given `ADDR_W`: `ADDR_W + 2` bits (R61). -/
abbrev CmdWord (aw : Nat) := BitVec (aw + 2)

/-- A response word `{status, data}` at a given `ADDR_W`: `ADDR_W + 3` bits (R64). -/
abbrev RspWord (aw : Nat) := BitVec (aw + 3)

/-- One byte of the emulated bus memory. -/
abbrev Byte := BitVec 8

/-- A key-state value: opaque to the scheduler, copied unchanged (R24, D11; log 2). -/
abbrev KeyState := Nat

/-- A framebuffer snapshot: opaque to the scheduler, copied unchanged (R27, D11; log 2). -/
abbrev FrameBuffer := Nat

/-- The fault value the CPU returns: opaque, handed back to the caller (R19, D16; log 2). -/
abbrev FaultInfo := Nat

end Sys2Proof
end

