-- ==== Sys2Proof/Machine/World.lean ====
section
/-!
DEFINITION. The world `W`: the collaborator state the scheduler reads or writes (spec/10_state.md R20 to R28,
spec/43_collaborator_ops.md), and the answers the collaborators give to the micro-operations.

The scheduler drives seven collaborators that the spec treats as already correct and gives by their operations only
(R4, R180).  What the scheduler can reach of them is a named field here; what is private to a collaborator is a list of
numbers the scheduler copies and never looks into (log 3).  The bus memory is a list of (address, byte) pairs in one
canonical form; the scheduler itself never reads or writes it (R40).
-/

namespace Sys2Proof.Machine

/-- Halt State (R21): `running`, or one of the two names the spec gives the other case.  The scheduler tells only
`running` from the rest (R68, D6). -/
inductive HaltState where
  | running
  | halted
  | stopped
deriving DecidableEq, Repr, Inhabited

/-- Display State as the scheduler sees it (R22, R66); `other` is any sub-state internal to the collaborator. -/
inductive DisplayState where
  | drawing
  | hblank
  | vblank
  | other
deriving DecidableEq, Repr, Inhabited

/-- The CPU core as the scheduler reaches it: the Cycle Counter (R20), its program counter and the next-instruction
address it answers (R25: two values, since how one is derived from the other is the CPU's), and everything else it
holds (registers, modes, pipeline), which the scheduler never looks into. -/
structure Cpu where
  cycles : Nat
  pc     : Addr
  nextPc : Addr
  regs   : List Nat
deriving DecidableEq, Repr, Inhabited

/-- The DMA Engine: its record of the VBlank and HBlank edges it was notified of (R28(b)) and its channel state. -/
structure Dma where
  vblankEdge : Bool
  hblankEdge : Bool
  channels   : List Nat
deriving DecidableEq, Repr, Inhabited

/-- The Timer Bank: `N` independent counters (R188; `N_TIMERS` is open, so a list) and the rest of its state. -/
structure TimerBank where
  counters : List Nat
  control  : List Nat
deriving DecidableEq, Repr, Inhabited

/-- The Display Controller: the level (R22), the framebuffer snapshot (R27) and its internal counters. -/
structure Display where
  level       : DisplayState
  framebuffer : FrameBuffer
  internal    : List Nat
deriving DecidableEq, Repr, Inhabited

/-- The Interrupt Controller (R23, R192): the persistent mask of requested sources, and the set of sources that are
enabled at the moment (whatever enable logic the collaborator has, its outcome per source).  How the answer of
`IC.pending` follows from the two is the controller's own (log 6). -/
structure InterruptController where
  requested : IrqMask
  enabled   : IrqMask
deriving DecidableEq, Repr, Inhabited

/-- The IO-device aggregate the Memory Bus owns (R232, glossary of R9): Halt State, input-state register (R24) and the
four devices. -/
structure IoAggregate where
  halt     : HaltState
  keyInput : KeyState
  dma      : Dma
  timers   : TimerBank
  display  : Display
  ic       : InterruptController
deriving DecidableEq, Repr, Inhabited

/-- The emulated bus memory: (address, byte) pairs in strictly rising address order (`Memory.wf`).  An address that is
not listed holds no byte the model knows of (log 5). -/
abbrev Memory := List Host.Cell

/-- The world `W` of R8: CPU state, bus memory, IO-device aggregate.  The Backend is outside it (introduction of
spec/43_collaborator_ops.md). -/
structure World where
  cpu : Cpu
  mem : Memory
  io  : IoAggregate
deriving DecidableEq, Repr, Inhabited

/-- The result of `CPU.step` (R69, R184): `ok`, or `fault` with the CPU's opaque fault value. -/
inductive CpuResult where
  | ok
  | fault (info : FaultInfo)
deriving DecidableEq, Repr, Inhabited

/-- A micro-operation as the scheduler issues it (R70), with its arguments (the bus handle is left out) and before
anything has come back: a call may return or not (R180, U5). -/
inductive Call where
  | cpuCycles
  | cpuNextPc
  | cpuServiceInterrupt
  | cpuStep
  | dmaTryWork (irqAcc : IrqMask)
  | dmaNotifyVblank
  | dmaNotifyHblank
  | timerAdvance (n : Nat) (irqAcc : IrqMask)
  | displayAdvance (n : Nat) (irqAcc : IrqMask)
  | displayState
  | displayFramebuffer
  | icPending
  | icMergeRequests (m : IrqMask)
  | ioHaltRunning
  | ioSetRunning
  | ioSetKeyinput (k : KeyState)
  | backendPollInput
  | backendPresent (fb : FrameBuffer)
deriving DecidableEq, Repr, Inhabited

/-! ### What a collaborator answers

Each record holds the state its operation may change, and no other (the frames of R199): what has no `Cpu` field is not
given the CPU.  `writes` are the bytes the collaborator stores through the bus, in order; `io` is the whole IO-device
aggregate after the call, since a device reaches the others through the bus (R53). -/

/-- What `CPU.service_interrupt` does (R183); it has no result and cannot fail. -/
structure CpuServiceAnswer where
  cpu    : Cpu
  writes : List Host.Cell
  io     : IoAggregate
deriving DecidableEq, Repr, Inhabited

/-- What `CPU.step` does and returns (R184). -/
structure CpuStepAnswer where
  cpu    : Cpu
  writes : List Host.Cell
  io     : IoAggregate
  result : CpuResult
deriving DecidableEq, Repr, Inhabited

/-- What `DMA.try_work` does and returns (R185): `irqAcc` is the bitmask after the call. -/
structure DmaAnswer where
  writes : List Host.Cell
  io     : IoAggregate
  irqAcc : IrqMask
  took   : Bool
deriving DecidableEq, Repr, Inhabited

/-- What `TIMER.advance` does (R188). -/
structure TimerAnswer where
  writes : List Host.Cell
  io     : IoAggregate
  irqAcc : IrqMask
deriving DecidableEq, Repr, Inhabited

/-- What `DISPLAY.advance` does and returns (R189): `trans` is the optional state-transition notification (R15). -/
structure DisplayAnswer where
  writes : List Host.Cell
  io     : IoAggregate
  irqAcc : IrqMask
  trans  : Option DisplayState
deriving DecidableEq, Repr, Inhabited

end Sys2Proof.Machine
end

