-- ==== Sys2Proof/Config.lean ====
section
/-!
DEFINITION. What the hardware fixes (the two named constants of spec/00_scope.md R6), the collaborators as
uninterpreted functions (spec/43_collaborator_ops.md R180: "a function from `W` and the arguments to a new `W` and a
result"), and the free values.

A constant declared `opaque` has no body: nothing in Lean can evaluate it or prove a value of it, so what is proved
holds whatever the collaborator does.  A collaborator's contract is not built in; a statement that needs a clause of it
takes it as a premise (D19, Sys2Proof/Safety.lean).  Built in are the frames of R199: what an operation may change is the
type of its answer (log 15).
-/

namespace Sys2Proof.Config

open Sys2Proof.Machine

/-- `IDLE_TICK` (R6, R110, U3, U4): the elapsed count of a step in which the CPU is halted. -/
def idleTick : Nat := 1

/-- `DMA_ELAPSED` (R6, R105, U4): the elapsed count of a step the DMA Engine took. -/
def dmaElapsed : Nat := 0

/-- `CPU.service_interrupt` (R183): given the bus handle, so the whole world. -/
opaque cpuServiceInterrupt : World → CpuServiceAnswer

/-- `CPU.step` (R184): one instruction against the bus. -/
opaque cpuStep : World → CpuStepAnswer

/-- `DMA.try_work` (R185): not given the CPU. -/
opaque dmaTryWork : Memory → IoAggregate → IrqMask → DmaAnswer

/-- `DMA.notify_vblank` (R186): changes DMA Engine state only. -/
opaque dmaNotifyVblank : Dma → Dma

/-- `DMA.notify_hblank` (R187): changes DMA Engine state only. -/
opaque dmaNotifyHblank : Dma → Dma

/-- `TIMER.advance` (R188), with the elapsed count. -/
opaque timerAdvance : Nat → Memory → IoAggregate → IrqMask → TimerAnswer

/-- `DISPLAY.advance` (R189), with the elapsed count. -/
opaque displayAdvance : Nat → Memory → IoAggregate → IrqMask → DisplayAnswer

/-- `IC.pending` (R192): a function of the controller's persistent state; it is not given `irq_acc`. -/
opaque icPending : InterruptController → Bool

/-- `IO.set_running` (R195): the Halt State after the call.  It may change nothing else (R199). -/
opaque ioSetRunning : IoAggregate → HaltState

/-- `IC.merge_requests(m)` (R193): the pending mask after the call.  It may change nothing else (R199). -/
opaque icMergeRequests : InterruptController → IrqMask → IrqMask

/-- `IO.set_keyinput(k)` (R196): the aggregate after the call.  Whether the write has a further effect inside the aggregate
is "not in the source". -/
opaque keyInputEffect : KeyState → IoAggregate → IoAggregate

/-- Whether a call returns (R180: "Every call returns", a clause of the collaborators' contracts and so a premise, D19; a
call that never returns leaves the command stuck, U5). -/
opaque callReturns : Call → World → Bool

/-- The key value `BACKEND.poll_input` returns at draw `n` (R197, U12: any value at each call). -/
opaque polledKey : Nat → KeyState

/-- The `info` field of a response whose status is neither `FAULT` nor `REFUSED` (R64: unspecified, U18: any value), at
draw `n`. -/
opaque unspecifiedInfo : Nat → FaultInfo

/-- The value `CPU.cycles() - start` when the counter has gone backwards, which the spec excludes by a contract of the
CPU and gives no value for (R112, U5). -/
opaque elapsedBackwards : Nat → Nat → Nat

/-- The suggested initial world (R30, D17): every value the spec leaves unspecified is the model's own choice (log 7),
and the one thing it fixes, a Display State other than `VBlank`, holds. -/
def resetWorld : World where
  cpu := { cycles := 0, pc := 0, nextPc := 0, regs := [] }
  mem := []
  io  :=
    { halt     := .running
      keyInput := 0
      dma      := { vblankEdge := false, hblankEdge := false, channels := [] }
      timers   := { counters := [], control := [] }
      display  := { level := .drawing, framebuffer := 0, internal := [] }
      ic       := { requested := 0, enabled := 0 } }

end Sys2Proof.Config
end

