-- ==== Sys2Proof/Machine/State.lean ====
section
/-!
DEFINITION. The state of the machine: the scheduler's registers (spec/10_state.md R11 to R19), the world it drives
(R20 to R28), what a caller sees (the response of R64, the trace of R9, the frames handed to the Backend, R198), the
inputs that wait (the caller's actions, R275; the answers the collaborators give next, R180, R197), and the build
parameters (R6, R31).  Reset: R30, R260.
-/

namespace Sys2Proof.Machine

/-- Where the sequencer rests between two steps of the model (R16): no command in progress, one of the two loop tests
of a `FRAME` in progress, or at a call that has not returned and never will, for which the command is stuck (U5).  The
other thirteen positions of R16 lie inside a command that runs as one function, which R16 permits (log 8). -/
inductive Phase where
  | idle
  | f2
  | f3
  | stuck (c : Call)
deriving DecidableEq, Repr

/-- The status of a response (R65). -/
inductive Status where
  | ok
  | okData
  | none
  | fault
  | refused
  | bpFull
deriving DecidableEq, Repr

/-- A response (R64). -/
structure Response where
  status : Status
  data   : Addr
  info   : FaultInfo
deriving DecidableEq, Repr

/-- The eighteen micro-operations of R70, each with its arguments and its result (R9); the bus handle is left out and a
bitmask handed over by reference is given before and after the call. -/
inductive MicroOp where
  | cpuCycles (n : Nat)
  | cpuNextPc (a : Addr)
  | cpuServiceInterrupt
  | cpuStep (r : CpuResult)
  | dmaTryWork (before after : IrqMask) (took : Bool)
  | dmaNotifyVblank
  | dmaNotifyHblank
  | timerAdvance (n : Nat) (before after : IrqMask)
  | displayAdvance (n : Nat) (before after : IrqMask) (trans : Option DisplayState)
  | displayState (level : DisplayState)
  | displayFramebuffer (fb : FrameBuffer)
  | icPending (answer : Bool)
  | icMergeRequests (m : IrqMask)
  | ioHaltRunning (answer : Bool)
  | ioSetRunning
  | ioSetKeyinput (k : KeyState)
  | backendPollInput (k : KeyState)
  | backendPresent (fb : FrameBuffer)
deriving DecidableEq, Repr

/-- What the caller does when the scheduler is idle (R275): issue a command, change collaborator state ("anything in
`W`; not `bp`, not `FAULT`": the CPU, bytes of bus memory, the IO aggregate), or reset.  A command word is the number on
the `ADDR_W + 2` bits of the command port (R61). -/
inductive CallerAction where
  | command (w : Nat)
  | setWorld (cpu : Cpu) (writes : List Host.Cell) (io : IoAggregate)
  | reset
deriving DecidableEq, Repr

/-- The answers the collaborators and the Backend give next, oldest first, one queue for each micro-operation whose
effect the spec leaves to its owner, and one that says of each call whether it returns (R180, U5).  Where a queue is empty
the answer is that of the uninterpreted function of `Config` (log 4).  Determinism (R200, D19) is the premise `State.deterministic` of Sys2Proof/Safety.lean. -/
structure Environment where
  cpuServiceInterrupt : List CpuServiceAnswer
  cpuStep             : List CpuStepAnswer
  dmaTryWork          : List DmaAnswer
  dmaNotifyVblank     : List Dma
  dmaNotifyHblank     : List Dma
  timerAdvance        : List TimerAnswer
  displayAdvance      : List DisplayAnswer
  icPending           : List Bool
  icMergeRequests     : List IrqMask
  ioSetRunning        : List HaltState
  keyInputEffect      : List IoAggregate
  polledKeys          : List KeyState
  returns             : List Bool
deriving DecidableEq, Repr

/-- The build parameters a step may read and never writes (R6, R31): the widths `ADDR_W` and `IRQ_W` (D8, D9), the
capacity `BP_MAX` of the breakpoint set (`none`: unbounded, the default, D12) and the initial world `W0` (D17). -/
structure BuildParameters where
  addrW : Nat
  irqW  : Nat
  bpMax : Option Nat
  w0    : World
deriving DecidableEq, Repr

/-- The state of the machine. -/
structure State where
  /-- R11: the interrupt request bitmask of the step. -/
  irqAcc    : IrqMask
  /-- R12: the cycle counter before the step did any work. -/
  start     : Nat
  /-- R13: the elapsed-cycle count of the step. -/
  elapsed   : Nat
  /-- R14: the DMA Engine's answer in S3. -/
  took      : Bool
  /-- R15: the notification the display returned in S7. -/
  trans     : Option DisplayState
  /-- R16: the sequencer position. -/
  phase     : Phase
  /-- R17: the breakpoint set, in insertion order. -/
  bp        : List Addr
  /-- R19: the fatal-fault latch `FAULT`. -/
  fault     : Bool
  /-- R19: `FAULT_INFO`. -/
  faultInfo : FaultInfo
  /-- R8, R20 to R28: the collaborators. -/
  world     : World
  /-- R64: the response of the last command; none while a command is in progress and before the first. -/
  response  : Option Response
  /-- R9: the micro-operations of the last command, or of the one in progress, oldest first. -/
  trace     : List MicroOp
  /-- R198: the framebuffers handed to the Backend since reset, oldest first. -/
  presented : List FrameBuffer
  /-- R275: what the caller does next, oldest first. -/
  caller    : List CallerAction
  /-- R180, R197: what the collaborators and the Backend answer next. -/
  env       : Environment
  /-- R6, R31: the build parameters. -/
  build     : BuildParameters
  /-- The model's own field: how many free values have been drawn (R197, U12, U18; log 9). -/
  draws     : Nat
deriving DecidableEq, Repr

/-- Why the machine stops with a fault: never.  The spec's one fatal fault is a response and a latch (R220, R221), so a
step that meets it has a next state, and no micro-operation but `CPU.step` has a failure case (R224).  A call that never
returns is no fault: the command never responds (U5). -/
inductive Fault where
deriving DecidableEq, Repr

/-- Why the machine gives an instruction no meaning. -/
inductive Refusal where
  /-- Raised by an arm of `exec` whose instruction has no meaning yet; safe.  No arm raises it: all four commands have
  their meaning.  (The status `REFUSED` of R236 is a response and not this.) -/
  | notModelled (mnemonic : String)
deriving DecidableEq, Repr

/-- No answer is queued. -/
def Environment.empty : Environment where
  cpuServiceInterrupt := []
  cpuStep             := []
  dmaTryWork          := []
  dmaNotifyVblank     := []
  dmaNotifyHblank     := []
  timerAdvance        := []
  displayAdvance      := []
  icPending           := []
  icMergeRequests     := []
  ioSetRunning        := []
  keyInputEffect      := []
  polledKeys          := []
  returns             := []

/-- The state after reset of a scheduler with the given build parameters (R30, R260): the breakpoint set empty, `FAULT`
0, the sequencer idle, the collaborators in their initial world.  The transient registers and `FAULT_INFO`, which the
spec leaves unspecified, are zero (log 7). -/
def State.resetWith (build : BuildParameters) : State where
  irqAcc    := 0
  start     := 0
  elapsed   := 0
  took      := false
  trans     := none
  phase     := .idle
  bp        := []
  fault     := false
  faultInfo := 0
  world     := build.w0
  response  := none
  trace     := []
  presented := []
  caller    := []
  env       := Environment.empty
  build     := build
  draws     := 0

/-- The machine right after reset, built with the defaults of R6 (`ADDR_W` 32, `IRQ_W` 16, `BP_MAX` unbounded) and the
suggested initial world (D8, D9, D12, D17). -/
def State.reset : State :=
  State.resetWith { addrW := defaultAddrW, irqW := defaultIrqW, bpMax := none, w0 := Config.resetWorld }

end Sys2Proof.Machine
end

