-- ==== Sys2Proof/Syntax.lean ====
section
/-!
DEFINITION. The command set RBA-SCHED (spec/30_encoding.md R62): one constructor per row of spec/opcode_table.json, and
the lines of a command script (R72).
-/

namespace Sys2Proof

/-- The four commands.  The only operand of the set is the breakpoint address (R63). -/
inductive Instr where
  /-- `STEP` (R100). -/
  | step
  /-- `FRAME` (R140). -/
  | frame
  /-- `ADD_BREAKPOINT a` (R160). -/
  | addBreakpoint (address : Addr)
  /-- `CHECK_BREAKPOINT` (R161). -/
  | checkBreakpoint
deriving DecidableEq, Repr

/-- The mnemonics of a command script (R72). -/
inductive Mnemonic where
  | step
  | frame
  | addBreakpoint
  | checkBreakpoint
deriving DecidableEq, Repr

/-- A line of a command script before it is checked (R72): a mnemonic and the number written after it, if any. -/
structure ScriptLine where
  mnemonic : Mnemonic
  operand  : Option Nat
deriving DecidableEq, Repr

end Sys2Proof
end

