-- ==== Sys2Proof/WellFormed.lean ====
section
/-!
DEFINITION. Which terms are commands.

The only operand of the set is an `ADDR_W`-bit address and every such value is accepted (spec/42_breakpoints.md R160,
R166), so `Instr.WellFormed` asks nothing of the other three commands and of `ADD_BREAKPOINT` that its address is below
`2^ADDR_W`.  A script line (spec/30_encoding.md R72) can be ill formed in three ways, each a check of its own: an operand
where the command takes none, no operand where it takes one, an address out of range.  `aw` is `ADDR_W`.
-/

namespace Sys2Proof

/-- Every field fits the field of the encoding it is written to (R61, R63). -/
abbrev Instr.WellFormed (aw : Nat) : Instr → Prop
  | .step => True
  | .frame => True
  | .addBreakpoint address => address < 2 ^ aw
  | .checkBreakpoint => True

/-- Whether a command takes the address operand (R62). -/
def Mnemonic.takesAddress : Mnemonic → Bool
  | .step => false
  | .frame => false
  | .addBreakpoint => true
  | .checkBreakpoint => false

/-- Check 1: a command without operand stands alone. -/
def ScriptLine.noStrayOperand (l : ScriptLine) : Bool :=
  l.mnemonic.takesAddress || l.operand.isNone

/-- Check 2: `ADD_BREAKPOINT` has its address. -/
def ScriptLine.operandPresent (l : ScriptLine) : Bool :=
  !l.mnemonic.takesAddress || l.operand.isSome

/-- Check 3: the address is in `0 .. 2^ADDR_W - 1`. -/
def ScriptLine.addressInRange (aw : Nat) (l : ScriptLine) : Bool :=
  match l.operand with
  | none => true
  | some a => decide (a < 2 ^ aw)

/-- A line that stands for a command (R72). -/
def ScriptLine.wellFormed (aw : Nat) (l : ScriptLine) : Bool :=
  l.noStrayOperand && l.operandPresent && l.addressInRange aw

end Sys2Proof
end

