-- ==== Sys2Proof/Decode.lean ====
section
/-!
DEFINITION. From words to commands and back (spec/30_encoding.md R61 to R63, R71), and from script lines to commands
(R72).

A command is ONE word of `ADDR_W + 2` bits: `op` in the top two bits, `arg` below.  All four values of `op` are used and
`arg` is ignored where it is not an address, so the decoder is total on words (R71).  A number that does not fit the
command port is no command word, and is refused by name.  `aw` is `ADDR_W`, which is open (R6).
-/

namespace Sys2Proof

/-- The `op` field, bits `[ADDR_W+1 : ADDR_W]` (R61), at any address width. -/
def opField (aw : Nat) (w : CmdWord aw) : BitVec 2 := w.extractLsb' aw 2

/-- The `arg` field, bits `[ADDR_W-1 : 0]` (R61), at any address width: unsigned, not extended, scaled, shifted or
aligned (R63). -/
def argField (aw : Nat) (w : CmdWord aw) : BitVec aw := w.extractLsb' 0 aw

/-- The word with the given fields (R61), at any address width. -/
def makeWord (aw : Nat) (op : BitVec 2) (arg : BitVec aw) : CmdWord aw :=
  (op ++ arg).cast (Nat.add_comm 2 aw)

/-- The opcode map (R62): the command an `op` and an `arg` stand for. -/
def commandOf (op : BitVec 2) (arg : Addr) : Instr :=
  if op = 0b00#2 then .step
  else if op = 0b01#2 then .frame
  else if op = 0b10#2 then .addBreakpoint arg
  else .checkBreakpoint

/-- The command a word stands for; every word stands for exactly one (R71). -/
def decode (aw : Nat) (w : CmdWord aw) : Instr := commandOf (opField aw w) (argField aw w).toNat

/-- Why a number is not decoded. -/
inductive DecodeError where
  /-- The number has more than `ADDR_W + 2` bits, so no caller can present it at the command port (R61). -/
  | notACommandWord (n : Nat)
deriving DecidableEq, Repr

/-- The command a number stands for as a command word, rejecting by name a number that is none. -/
def decodeNumber (aw n : Nat) : Except DecodeError Instr :=
  if n < 2 ^ (aw + 2) then .ok (decode aw (BitVec.ofNat (aw + 2) n)) else .error (.notACommandWord n)

/-- The command read from an instruction whose bits are `w`, numbered as spec/opcode_table.json numbers them; the bits
above `nbits` are zero.  The table is written at the default `ADDR_W`.  A command is one word (R61) and no byte string
(R44), so there is nothing to lay out. -/
def decodeTableWord (nbits w : Nat) : Option Instr :=
  match decodeNumber defaultAddrW (w % 2 ^ nbits) with
  | .ok i => some i
  | .error _ => none

/-- The `op` field of a command (R62). -/
def opcodeOf : Instr → BitVec 2
  | .step => 0b00#2
  | .frame => 0b01#2
  | .addBreakpoint _ => 0b10#2
  | .checkBreakpoint => 0b11#2

/-- The `arg` field of a command: the address, and zero where it is ignored ("an assembler emits 0", R71). -/
def argumentOf (aw : Nat) : Instr → BitVec aw
  | .step => 0
  | .frame => 0
  | .addBreakpoint address => BitVec.ofNat aw address
  | .checkBreakpoint => 0

/-- The command word of a command. -/
def encode (aw : Nat) (i : Instr) : CmdWord aw := makeWord aw (opcodeOf i) (argumentOf aw i)

/-- The command a script line stands for, none for an ill-formed line (R72). -/
def assembleLine (aw : Nat) (l : ScriptLine) : Option Instr :=
  if l.wellFormed aw then
    match l.mnemonic, l.operand with
    | .step, _ => some .step
    | .frame, _ => some .frame
    | .addBreakpoint, some a => some (.addBreakpoint a)
    | .addBreakpoint, none => none
    | .checkBreakpoint, _ => some .checkBreakpoint
  else none

end Sys2Proof
end

