-- ==== Sys2Proof/Machine/Operands.lean ====
section
/-!
DEFINITION. The values a command computes (spec/40_step.md R128: "four computations and no others"), the form in which a
result is handed back (spec/30_encoding.md R64, R65), and the widths of what comes in through a port (spec/00_scope.md
R6, R7).
-/

namespace Sys2Proof.Machine

/-- `elapsed <- CPU.cycles() - start` on natural numbers (R108, R112).  The subtraction "cannot go negative because the
counter is monotonically non-decreasing"; where a CPU breaks that contract the spec gives no value, and the value is
free (log 10). -/
def elapsedSince (start now : Nat) : Nat :=
  if start ≤ now then now - start else Config.elapsedBackwards start now

/-- A number on a port of `w` bits: its bits `[w-1 : 0]` (R7; log 1). -/
def atWidth (w v : Nat) : Nat := v % 2 ^ w

/-- The position a new breakpoint gets: the number of entries before the insertion (R160, D13), in the `data` field
(`zext_ADDR_W`, R65). -/
def positionData (aw : Nat) (bp : List Addr) : Addr := atWidth aw bp.length

/-- The accumulated requests merged into a pending mask (R118, R193). -/
def mergedRequests (pending m : IrqMask) : IrqMask := pending ||| m

/-- `a ⊆ b` of R7: every bit set in `a` is set in `b`. -/
def bitsWithin (a b : IrqMask) : Bool := a &&& b == a

/-! ### The widths of a collaborator's values

A collaborator hands over `ADDR_W`-bit addresses and `IRQ_W`-bit masks (R11, R23, R25, R182, R193); what its answer holds
above them does not reach the machine (log 1). -/

/-- The CPU with its two addresses at `ADDR_W` bits. -/
def Cpu.atWidths (b : BuildParameters) (c : Cpu) : Cpu :=
  { c with pc := atWidth b.addrW c.pc, nextPc := atWidth b.addrW c.nextPc }

/-- The IO-device aggregate with the two masks of its Interrupt Controller at `IRQ_W` bits. -/
def IoAggregate.atWidths (b : BuildParameters) (io : IoAggregate) : IoAggregate :=
  { io with ic := { requested := atWidth b.irqW io.ic.requested, enabled := atWidth b.irqW io.ic.enabled } }

/-- The answer of `CPU.service_interrupt`, each value at its width. -/
def CpuServiceAnswer.atWidths (b : BuildParameters) (r : CpuServiceAnswer) : CpuServiceAnswer :=
  { r with cpu := r.cpu.atWidths b, io := r.io.atWidths b }

/-- The answer of `CPU.step`, each value at its width. -/
def CpuStepAnswer.atWidths (b : BuildParameters) (r : CpuStepAnswer) : CpuStepAnswer :=
  { r with cpu := r.cpu.atWidths b, io := r.io.atWidths b }

/-- The answer of `DMA.try_work`, each value at its width. -/
def DmaAnswer.atWidths (b : BuildParameters) (r : DmaAnswer) : DmaAnswer :=
  { r with io := r.io.atWidths b, irqAcc := atWidth b.irqW r.irqAcc }

/-- The answer of `TIMER.advance`, each value at its width. -/
def TimerAnswer.atWidths (b : BuildParameters) (r : TimerAnswer) : TimerAnswer :=
  { r with io := r.io.atWidths b, irqAcc := atWidth b.irqW r.irqAcc }

/-- The answer of `DISPLAY.advance`, each value at its width. -/
def DisplayAnswer.atWidths (b : BuildParameters) (r : DisplayAnswer) : DisplayAnswer :=
  { r with io := r.io.atWidths b, irqAcc := atWidth b.irqW r.irqAcc }

end Sys2Proof.Machine
end

