-- ==== Sys2Proof/Machine/Flags.lean ====
section
/-!
DEFINITION. The predicates that steer the scheduler (spec/10_state.md R29).  It has no condition codes; `took`, `trans`
and `FAULT` are registers of State and are read as they stand.
-/

namespace Sys2Proof.Machine

/-- The test "If Halt State is Running" (R68, R194): every other value of it counts alike. -/
def HaltState.isRunning : HaltState → Bool
  | .running => true
  | .halted => false
  | .stopped => false

/-- The test "= VBlank" on the Display State (R66, R142, R143): `drawing`, `hblank` and `other` count alike. -/
def DisplayState.isVblank : DisplayState → Bool
  | .drawing => false
  | .hblank => false
  | .vblank => true
  | .other => false

/-- "Is any requested+enabled interrupt pending?" (R192), of the controller's persistent state.  The answer of
`IC.pending` is the controller's own; that it is this one is a premise, `State.pendingContract` (log 6). -/
def InterruptController.anyEnabledRequest (ic : InterruptController) : Bool := ic.requested &&& ic.enabled != 0

/-- `a ∈ bp` (R160, R161): exact equality of all `ADDR_W` bits with some entry (R166). -/
def isBreakpoint (bp : List Addr) (a : Addr) : Bool := bp.contains a

/-- `len(bp) = BP_MAX` (R160, R165): never with an unbounded set. -/
def breakpointSetFull (build : BuildParameters) (bp : List Addr) : Bool :=
  match build.bpMax with
  | none => false
  | some m => bp.length == m

end Sys2Proof.Machine
end

