-- ==== Sys2Proof/Machine/Ops.lean ====
section
/-!
DEFINITION. The named operations: over the bus memory the collaborators write, the eighteen micro-operations of
spec/43_collaborator_ops.md, raising the fatal fault (spec/60_exceptions.md R221) and responding (spec/30_encoding.md
R64).

A micro-operation is one indivisible transaction (R43): it makes its changes, appends itself with its arguments and its
result to the trace, and returns.
-/

namespace Sys2Proof.Machine

/-! ### Bus memory -/

/-- The byte at an address; none where no byte is listed (log 5). -/
def Memory.read : Memory → Nat → Option Byte
  | [], _ => none
  | (k, b) :: rest, a => if k = a then some b else Memory.read rest a

/-- Store one byte, keeping the addresses strictly rising. -/
def Memory.write (a : Nat) (v : Byte) : Memory → Memory
  | [] => [(a, v)]
  | (k, b) :: rest =>
    if a < k then (a, v) :: (k, b) :: rest
    else if a = k then (a, v) :: rest
    else (k, b) :: Memory.write a v rest

/-- Store a collaborator's bytes, in order. -/
def Memory.writes : List Host.Cell → Memory → Memory
  | [], m => m
  | (a, v) :: rest, m => Memory.writes rest (Memory.write a v m)

/-- The canonical form: addresses strictly rising (an unlisted address has no value, so no entry can equal it). -/
def Memory.wf : Memory → Bool
  | [] => true
  | [_] => true
  | (a, _) :: (b, v) :: rest => decide (a < b) && Memory.wf ((b, v) :: rest)

/-! ### The trace and the response -/

/-- One more call has returned. -/
def Environment.returned (e : Environment) : Environment := { e with returns := e.returns.tail }

/-- A micro-operation that changes nothing of the world was issued and has returned (R9). -/
def State.log (s : State) (op : MicroOp) : State :=
  { s with env := s.env.returned, trace := s.trace ++ [op] }

/-- A command begins: its trace is empty and there is no response yet (R9, R64). -/
def State.begin (s : State) : State := { s with trace := [], response := none }

/-- `respond <status>(data)` (R7, R64): the command ends and the sequencer is idle.  `info` is unspecified, so a free
value (U18, log 9). -/
def State.respond (s : State) (status : Status) (data : Addr) : State :=
  { s with
    response := some { status := status, data := data, info := Config.unspecifiedInfo s.draws }
    draws := s.draws + 1
    phase := .idle }

/-- `respond REFUSED(info = FAULT_INFO)` (R101, R236). -/
def State.refuse (s : State) : State :=
  { s with response := some { status := .refused, data := 0, info := s.faultInfo }, phase := .idle }

/-- `raise Fault(info)` (R221), the scheduler's one exception: `FAULT <- 1`, `FAULT_INFO <- info`, and the command, an
enclosing `FRAME` with it, ends with status `FAULT`.  There is no handler, no vector and no return from it. -/
def State.raiseFault (s : State) (info : FaultInfo) : State :=
  { s with
    fault := true
    faultInfo := info
    response := some { status := .fault, data := 0, info := info }
    phase := .idle }

/-! ### Calls

Every micro-operation is a synchronous call: only when it has returned does the scheduler go on (R180). -/

/-- Whether the call `c`, made in this state, returns. -/
def State.returns (s : State) (c : Call) : Bool :=
  s.env.returns.head?.getD (Config.callReturns c s.world)

/-- The call `c` never returns: the command is stuck there and never responds (U5).  What the call did is not recorded,
since nobody sees it (log 16). -/
def State.hang (s : State) (c : Call) : State := { s with phase := .stuck c }

/-- How a sequence of calls ends: the scheduler goes on, the fatal fault was raised and nothing more is done, or a call
never returned. -/
inductive Exit where
  | completed (s : State)
  | raised (s : State)
  | stuck (s : State)
deriving DecidableEq, Repr

/-- Go on with `f` where the scheduler goes on. -/
def Exit.andThen (e : Exit) (f : State → Exit) : Exit :=
  match e with
  | .completed s => f s
  | .raised s => .raised s
  | .stuck s => .stuck s

/-- The state reached, however it was. -/
def Exit.state : Exit → State
  | .completed s => s
  | .raised s => s
  | .stuck s => s

/-- Make the call `c`; `run` is what the state is when it has returned (R180). -/
def State.call (s : State) (c : Call) (run : State → State) : Exit :=
  if s.returns c then .completed (run s) else .stuck (s.hang c)

/-! ### What the collaborators answer

The answer at the head of the micro-operation's queue, or the uninterpreted function's, each value at its width. -/

/-- What `CPU.service_interrupt` does in this state. -/
def State.cpuServiceAnswer (s : State) : CpuServiceAnswer :=
  (s.env.cpuServiceInterrupt.head?.getD (Config.cpuServiceInterrupt s.world)).atWidths s.build

/-- What `CPU.step` does in this state. -/
def State.cpuStepAnswer (s : State) : CpuStepAnswer :=
  (s.env.cpuStep.head?.getD (Config.cpuStep s.world)).atWidths s.build

/-- What `DMA.try_work` does in this state. -/
def State.dmaAnswer (s : State) : DmaAnswer :=
  (s.env.dmaTryWork.head?.getD (Config.dmaTryWork s.world.mem s.world.io s.irqAcc)).atWidths s.build

/-- What `DMA.notify_vblank` makes of the DMA Engine in this state. -/
def State.vblankNotified (s : State) : Dma :=
  s.env.dmaNotifyVblank.head?.getD (Config.dmaNotifyVblank s.world.io.dma)

/-- What `DMA.notify_hblank` makes of the DMA Engine in this state. -/
def State.hblankNotified (s : State) : Dma :=
  s.env.dmaNotifyHblank.head?.getD (Config.dmaNotifyHblank s.world.io.dma)

/-- What `TIMER.advance(elapsed, ..)` does in this state. -/
def State.timerAnswer (s : State) : TimerAnswer :=
  (s.env.timerAdvance.head?.getD (Config.timerAdvance s.elapsed s.world.mem s.world.io s.irqAcc)).atWidths s.build

/-- What `DISPLAY.advance(elapsed, ..)` does in this state. -/
def State.displayAnswer (s : State) : DisplayAnswer :=
  (s.env.displayAdvance.head?.getD (Config.displayAdvance s.elapsed s.world.mem s.world.io s.irqAcc)).atWidths s.build

/-- What `IC.pending()` answers in this state (R192). -/
def State.pending (s : State) : Bool :=
  s.env.icPending.head?.getD (Config.icPending s.world.io.ic)

/-- The Halt State `IO.set_running()` leaves in this state (R195). -/
def State.haltAnswer (s : State) : HaltState :=
  s.env.ioSetRunning.head?.getD (Config.ioSetRunning s.world.io)

/-- The pending mask `IC.merge_requests(irq_acc)` leaves in this state (R193). -/
def State.mergeAnswer (s : State) : IrqMask :=
  atWidth s.build.irqW (s.env.icMergeRequests.head?.getD (Config.icMergeRequests s.world.io.ic s.irqAcc))

/-- What `IO.set_keyinput(k)` makes of the aggregate in this state (R196). -/
def State.keyInputAnswer (s : State) (k : KeyState) : IoAggregate :=
  (s.env.keyInputEffect.head?.getD (Config.keyInputEffect k s.world.io)).atWidths s.build

/-- The key value `BACKEND.poll_input` returns in this state. -/
def State.polledKey (s : State) : KeyState :=
  s.env.polledKeys.head?.getD (Config.polledKey s.draws)

/-! ### The world after a collaborator acted -/

/-- A collaborator that is given the CPU acted (R183, R184). -/
def World.afterCpu (w : World) (cpu : Cpu) (writes : List Host.Cell) (io : IoAggregate) : World :=
  { w with cpu := cpu, mem := Memory.writes writes w.mem, io := io }

/-- A collaborator that is given the bus and not the CPU acted (R185, R188, R189). -/
def World.afterDevice (w : World) (writes : List Host.Cell) (io : IoAggregate) : World :=
  { w with mem := Memory.writes writes w.mem, io := io }

/-! ### The micro-operations

The pure reads of a named field of the world are read where a phase needs them and logged there. -/

/-- `CPU.cycles()` (R181): the Cycle Counter. -/
def State.cycles (s : State) : Nat := s.world.cpu.cycles

/-- `CPU.next_pc()` (R182). -/
def State.nextPc (s : State) : Addr := s.world.cpu.nextPc

/-- `DISPLAY.state()` (R190): the level. -/
def State.displayLevel (s : State) : DisplayState := s.world.io.display.level

/-- `DISPLAY.framebuffer()` (R191). -/
def State.framebuffer (s : State) : FrameBuffer := s.world.io.display.framebuffer

/-- `IO.halt_running()` (R194). -/
def State.running (s : State) : Bool := s.world.io.halt.isRunning

/-- `IC.pending()` (R106, R192): the world is read and not changed. -/
def State.askPending (s : State) : State :=
  { s with
    env := { s.env.returned with icPending := s.env.icPending.tail }
    trace := s.trace ++ [.icPending s.pending] }

/-- `CPU.service_interrupt(bus)` (R183, R228). -/
def State.serviceInterrupt (s : State) : State :=
  let r := s.cpuServiceAnswer
  { s with
    world := s.world.afterCpu r.cpu r.writes r.io
    env := { s.env.returned with cpuServiceInterrupt := s.env.cpuServiceInterrupt.tail }
    trace := s.trace ++ [.cpuServiceInterrupt] }

/-- `CPU.step(bus)` (R184): what it changed before a failure stays changed. -/
def State.cpuStep (s : State) : State :=
  let r := s.cpuStepAnswer
  { s with
    world := s.world.afterCpu r.cpu r.writes r.io
    env := { s.env.returned with cpuStep := s.env.cpuStep.tail }
    trace := s.trace ++ [.cpuStep r.result] }

/-- `took <- DMA.try_work(bus, irq_acc)` (R104, R185). -/
def State.dmaTryWork (s : State) : State :=
  let r := s.dmaAnswer
  { s with
    world := s.world.afterDevice r.writes r.io
    irqAcc := r.irqAcc
    took := r.took
    env := { s.env.returned with dmaTryWork := s.env.dmaTryWork.tail }
    trace := s.trace ++ [.dmaTryWork s.irqAcc r.irqAcc r.took] }

/-- `DMA.notify_vblank()` (R186). -/
def State.notifyVblank (s : State) : State :=
  { s with
    world := { s.world with io := { s.world.io with dma := s.vblankNotified } }
    env := { s.env.returned with dmaNotifyVblank := s.env.dmaNotifyVblank.tail }
    trace := s.trace ++ [.dmaNotifyVblank] }

/-- `DMA.notify_hblank()` (R187). -/
def State.notifyHblank (s : State) : State :=
  { s with
    world := { s.world with io := { s.world.io with dma := s.hblankNotified } }
    env := { s.env.returned with dmaNotifyHblank := s.env.dmaNotifyHblank.tail }
    trace := s.trace ++ [.dmaNotifyHblank] }

/-- `TIMER.advance(elapsed, bus, irq_acc)` (R111, R188). -/
def State.timerAdvance (s : State) : State :=
  let r := s.timerAnswer
  { s with
    world := s.world.afterDevice r.writes r.io
    irqAcc := r.irqAcc
    env := { s.env.returned with timerAdvance := s.env.timerAdvance.tail }
    trace := s.trace ++ [.timerAdvance s.elapsed s.irqAcc r.irqAcc] }

/-- `trans <- DISPLAY.advance(elapsed, bus, irq_acc)` (R113, R189). -/
def State.displayAdvance (s : State) : State :=
  let r := s.displayAnswer
  { s with
    world := s.world.afterDevice r.writes r.io
    irqAcc := r.irqAcc
    trans := r.trans
    env := { s.env.returned with displayAdvance := s.env.displayAdvance.tail }
    trace := s.trace ++ [.displayAdvance s.elapsed s.irqAcc r.irqAcc r.trans] }

/-- `BACKEND.present(fb)` (R114, R198): the snapshot handed over unchanged. -/
def State.present (s : State) (fb : FrameBuffer) : State :=
  { s with
    presented := s.presented ++ [fb]
    env := s.env.returned
    trace := s.trace ++ [.backendPresent fb] }

/-- `IC.merge_requests(irq_acc)` (R118, R193): it may write the pending mask and nothing else.  That it ORs is the premise
`State.mergeContract`. -/
def State.mergeRequests (s : State) : State :=
  let ic := { s.world.io.ic with requested := s.mergeAnswer }
  { s with
    world := { s.world with io := { s.world.io with ic := ic } }
    env := { s.env.returned with icMergeRequests := s.env.icMergeRequests.tail }
    trace := s.trace ++ [.icMergeRequests s.irqAcc] }

/-- `IO.set_running()` (R107, R195): it may write the Halt State and nothing else.  That it makes it Running is the
premise `State.setRunningContract` (D19). -/
def State.setRunning (s : State) : State :=
  { s with
    world := { s.world with io := { s.world.io with halt := s.haltAnswer } }
    env := { s.env.returned with ioSetRunning := s.env.ioSetRunning.tail }
    trace := s.trace ++ [.ioSetRunning] }

/-- `k <- BACKEND.poll_input()` (R141, R197); `k` is `polledKey` of the state before. -/
def State.pollInput (s : State) : State :=
  { s with
    env := { s.env.returned with polledKeys := s.env.polledKeys.tail }
    draws := s.draws + 1
    trace := s.trace ++ [.backendPollInput s.polledKey] }

/-- `IO.set_keyinput(k)` (R141, R196): it may write the IO-device aggregate.  That it writes `k` to the input-state
register is the premise `State.inputWritten`. -/
def State.setKeyinput (s : State) (k : KeyState) : State :=
  { s with
    world := { s.world with io := s.keyInputAnswer k }
    env := { s.env.returned with keyInputEffect := s.env.keyInputEffect.tail }
    trace := s.trace ++ [.ioSetKeyinput k] }

end Sys2Proof.Machine
end

