-- ==== Sys2Proof/Machine/Caller.lean ====
section
/-!
DEFINITION. What the caller does between commands (spec/70_reset_and_hazards.md R275), the commands themselves apart.
-/

namespace Sys2Proof.Machine

/-- The caller changes collaborator state (R275): anything in `W`, each value at its width; not `bp`, not `FAULT`. -/
def State.callerSetsWorld (s : State) (cpu : Cpu) (writes : List Host.Cell) (io : IoAggregate) : State :=
  { s with world := s.world.afterCpu (cpu.atWidths s.build) writes (io.atWidths s.build) }

/-- The caller resets the machine (R260): the scheduler and all collaborators in their initial state.  What is outside
them stays: what the caller does next, what the environment answers next, the build, and the count of free values drawn
(log 12). -/
def State.callerResets (s : State) : State :=
  { State.resetWith s.build with caller := s.caller, env := s.env, draws := s.draws }

/-- The command word `w` is what the caller issues next, and the scheduler is idle to accept it. -/
def State.presentCommand (s : State) (w : Nat) : State :=
  { s with phase := .idle, caller := .command w :: s.caller }

end Sys2Proof.Machine
end

