-- ==== Sys2Proof/Machine/BreakpointCommands.lean ====
section
/-!
DEFINITION. The breakpoint commands (spec/42_breakpoints.md).  There is no removal (R163), and neither `STEP` nor `FRAME`
looks at the set (R162).
-/

namespace Sys2Proof.Machine

/-- `ADD_BREAKPOINT a` (R160): the gate, the duplicate test, the capacity test, and the append, in that order.  No
micro-operation is issued. -/
def execAddBreakpoint (a : Addr) (s : State) : Host.Outcome State Fault Refusal :=
  .next
    (if s.fault then s.begin.refuse
    else if isBreakpoint s.bp a then s.begin.respond .none 0
    else if breakpointSetFull s.build s.bp then s.begin.respond .bpFull 0
    else { s.begin with bp := s.bp ++ [a] }.respond .okData (positionData s.build.addrW s.bp))

/-- `CPU.next_pc()` (R182). -/
def State.readNextPc (s : State) : State := s.log (.cpuNextPc s.nextPc)

/-- `CHECK_BREAKPOINT` (R161): the next-instruction address itself if it is in the set.  One `CPU.next_pc()`. -/
def execCheckBreakpoint (s : State) : Host.Outcome State Fault Refusal :=
  .next
    (if s.fault then s.begin.refuse
    else
      (s.begin.call .cpuNextPc fun t =>
        if isBreakpoint s.bp s.nextPc then t.readNextPc.respond .okData s.nextPc
        else t.readNextPc.respond .none 0).state)

end Sys2Proof.Machine
end

