-- ==== Sys2Proof/Machine/StepCommand.lean ====
section
/-!
DEFINITION. The `STEP` command (spec/40_step.md): the phases S1 to S8, the step body they make, which `FRAME` runs too,
and the command with its fault gate S0.

A phase is written as its calls in order.  Each goes on only when the call before it has returned (R180), so a phase has an
`Exit`.
-/

namespace Sys2Proof.Machine

/-- S1 (R102): a fresh, empty request bitmask. -/
def State.phaseS1 (s : State) : State := { s with irqAcc := 0 }

/-- `start <- CPU.cycles()` (R103). -/
def State.readStart (s : State) : State := { s.log (.cpuCycles s.cycles) with start := s.cycles }

/-- S2 (R103): the cycle counter before any work. -/
def State.phaseS2 (s : State) : Exit := s.call .cpuCycles State.readStart

/-- S3 (R104): the DMA Engine is asked first, in every step. -/
def State.phaseS3 (s : State) : Exit := s.call (.dmaTryWork s.irqAcc) State.dmaTryWork

/-- S3 when the DMA Engine took the cycle (R105): `elapsed <- 0`, and S4 and S5 are skipped. -/
def State.dmaTook (s : State) : State := { s with elapsed := Config.dmaElapsed }

/-- S4 on a pending interrupt (R107): the entry routine and the wake, whatever the Halt State. -/
def State.enterAndWake (s : State) : Exit :=
  (s.call .cpuServiceInterrupt State.serviceInterrupt).andThen fun t => t.call .ioSetRunning State.setRunning

/-- S4 (R106, R107): the query, and what it decides. -/
def State.phaseS4 (s : State) : Exit :=
  (s.call .icPending State.askPending).andThen fun t => if s.pending then t.enterAndWake else .completed t

/-- `elapsed <- CPU.cycles() - start` (R108): the cycle counter's delta since S2, so it covers an interrupt entry too. -/
def State.countElapsed (s : State) : State :=
  { s.log (.cpuCycles s.cycles) with elapsed := elapsedSince s.start s.cycles }

/-- What follows `CPU.step` (R108, R109): the count, or the fatal fault is raised and the step stops. -/
def State.afterInstruction (s : State) (r : CpuResult) : Exit :=
  match r with
  | .fault info => .raised (s.raiseFault info)
  | .ok => s.call .cpuCycles State.countElapsed

/-- S5, Running (R108): exactly one instruction. -/
def State.executeOne (s : State) : Exit :=
  (s.call .cpuStep State.cpuStep).andThen fun t => t.afterInstruction s.cpuStepAnswer.result

/-- S5, not Running (R110): the fixed idle tick, the CPU not touched. -/
def State.idleTick (s : State) : State := { s with elapsed := Config.idleTick }

/-- `IO.halt_running()` (R194). -/
def State.readHalt (s : State) : State := s.log (.ioHaltRunning s.running)

/-- S5 (R108): the Halt State is read after S4. -/
def State.phaseS5 (s : State) : Exit :=
  (s.call .ioHaltRunning State.readHalt).andThen fun t =>
    if s.running then t.executeOne else .completed t.idleTick

/-- S6 (R111). -/
def State.phaseS6 (s : State) : Exit := s.call (.timerAdvance s.elapsed s.irqAcc) State.timerAdvance

/-- `DISPLAY.framebuffer()` (R191). -/
def State.readFramebuffer (s : State) : State := s.log (.displayFramebuffer s.framebuffer)

/-- S7 on `some(VBlank)` (R114): the snapshot is read, presented, and the DMA Engine notified. -/
def State.enterVblank (s : State) : Exit :=
  ((s.call .displayFramebuffer State.readFramebuffer).andThen fun t =>
    t.call (.backendPresent s.framebuffer) fun u => u.present s.framebuffer).andThen fun t =>
      t.call .dmaNotifyVblank State.notifyVblank

/-- The notifications of S7 (R114 to R116), driven by the returned transition only (R117). -/
def State.displayEdge (s : State) : Exit :=
  match s.trans with
  | some .vblank => s.enterVblank
  | some .hblank => s.call .dmaNotifyHblank State.notifyHblank
  | some .drawing => .completed s
  | some .other => .completed s
  | none => .completed s

/-- S7 (R113). -/
def State.phaseS7 (s : State) : Exit :=
  (s.call (.displayAdvance s.elapsed s.irqAcc) State.displayAdvance).andThen State.displayEdge

/-- S8 (R118). -/
def State.phaseS8 (s : State) : Exit := s.call (.icMergeRequests s.irqAcc) State.mergeRequests

/-- S6 to S8, the part of a step every branch reaches but a fault (R124). -/
def State.stepTail (s : State) : Exit := (s.phaseS6.andThen State.phaseS7).andThen State.phaseS8

/-- S4 and S5, when the DMA Engine declined. -/
def State.cpuPart (s : State) : Exit := s.phaseS4.andThen State.phaseS5

/-- S1 to S5: who uses the cycle (the arbiter of R226), and the elapsed count that comes of it (R112). -/
def State.arbitrate (s : State) : Exit :=
  (s.phaseS1.phaseS2.andThen State.phaseS3).andThen fun t => if t.took then .completed t.dmaTook else t.cpuPart

/-- STEPBODY (R140): phases S1 to S8 in the strict order of R100, without the gate and without the response. -/
def State.stepBody (s : State) : Exit := s.arbitrate.andThen State.stepTail

/-- `STEP` (R100): the gate S0 (R101), the step body, and the response (R119).  On a fault the response is already given
(R109, R221); a stuck command has none. -/
def execStep (s : State) : Host.Outcome State Fault Refusal :=
  .next
    (if s.fault then s.begin.refuse
    else (s.begin.stepBody.andThen fun t => .completed (t.respond .ok 0)).state)

end Sys2Proof.Machine
end

