-- ==== Sys2Proof/Machine/FrameCommand.lean ====
section
/-!
DEFINITION. The `FRAME` command (spec/41_frame.md).

A `FRAME` has no step limit and may never respond (R150), so it is not one function: `execFrame` is the gate F0 and the
input refresh F1 and leaves the sequencer at the loop test F2, and each later step of the machine is one test of F2 or
F3 with the step body it admits, until the command responds.  Nothing cuts the loops short (U17, log 11).
-/

namespace Sys2Proof.Machine

/-- F1 (R141): one key sample, and the value written on unchanged. -/
def State.refreshInput (s : State) : Exit :=
  (s.call .backendPollInput State.pollInput).andThen fun t =>
    t.call (.ioSetKeyinput s.polledKey) fun u => u.setKeyinput s.polledKey

/-- F0 and F1 (R141, R145): with `FAULT = 1` nothing but the refusal; otherwise one key sample, and on to F2. -/
def execFrame (s : State) : Host.Outcome State Fault Refusal :=
  .next
    (if s.fault then s.begin.refuse
    else (s.begin.refreshInput.andThen fun t => .completed { t with phase := .f2 }).state)

/-- `DISPLAY.state()` read for a loop test (R142, R143, R190). -/
def State.readLevel (s : State) : State := s.log (.displayState s.displayLevel)

/-- F2 (R142): while the level is not `VBlank`, one step body and test again; otherwise go to F3.  On a fault in the body
the `FRAME` has ended (R144). -/
def State.frameF2 (s : State) : State :=
  ((s.call .displayState State.readLevel).andThen fun t =>
    if s.displayLevel.isVblank then .completed { t with phase := .f3 } else t.stepBody).state

/-- F3 (R143): while the level is `VBlank`, one step body and test again; otherwise respond `OK`. -/
def State.frameF3 (s : State) : State :=
  ((s.call .displayState State.readLevel).andThen fun t =>
    if s.displayLevel.isVblank then t.stepBody else .completed (t.respond .ok 0)).state

end Sys2Proof.Machine
end

