-- ==== Sys2Proof/Machine/Dispatch.lean ====
section
/-!
DEFINITION. One arm per command (spec/30_encoding.md R62).
-/

namespace Sys2Proof.Machine

def exec (i : Instr) (s : State) : Host.Outcome State Fault Refusal :=
  match i with
  | .step => Sys2Proof.Machine.execStep s
  | .frame => Sys2Proof.Machine.execFrame s
  | .addBreakpoint address => Sys2Proof.Machine.execAddBreakpoint address s
  | .checkBreakpoint => Sys2Proof.Machine.execCheckBreakpoint s

end Sys2Proof.Machine
end

