-- ==== Sys2Proof/Machine/Step.lean ====
section
/-!
DEFINITION. One step of the machine: what the caller does next when the scheduler is idle, one loop test of the `FRAME`
in progress otherwise (spec/10_state.md R16, spec/70_reset_and_hazards.md R265, R275).

Commands do not overlap, queue or abort (R265): the list of the caller's actions is what the caller will do, one at a
time, each when the scheduler is idle.  When the caller does nothing, nothing happens (R276).  A command whose
call never returns is stuck: nothing happens any more, and it never responds (U5).
-/

namespace Sys2Proof.Machine

/-- One step. -/
def step (s : State) : Host.Outcome State Fault Refusal :=
  match s.phase with
  | .f2 => .next s.frameF2
  | .f3 => .next s.frameF3
  | .idle =>
    match s.caller with
    | [] => .next s
    | .command w :: rest => exec (decode s.build.addrW (BitVec.ofNat _ w)) { s with caller := rest }
    | .setWorld cpu writes io :: rest => .next ({ s with caller := rest }.callerSetsWorld cpu writes io)
    | .reset :: rest => .next { s with caller := rest }.callerResets
  | .stuck _ => .next s

/-- The state in which the next step runs the command of the word `w`: the caller presents it at the command port of an
idle scheduler (log 13).  `nbits` is how many bits of `w` count; the ones above are zero.  `w` is numbered as
spec/opcode_table.json numbers it, at the default `ADDR_W`; the word presented is the same command's at the `ADDR_W` of
this build. -/
def State.withFetchWord (s : State) (nbits w : Nat) : State :=
  s.presentCommand (encode s.build.addrW (decode defaultAddrW (BitVec.ofNat _ (w % 2 ^ nbits)))).toNat

end Sys2Proof.Machine
end

