-- ==== Sys2Proof/Machine/Codes.lean ====
section
/-!
DEFINITION. The numeric codes on the scheduler's interfaces (spec/30_encoding.md R64 to R70, spec/60_exceptions.md R220).
-/

namespace Sys2Proof.Machine

/-- The status codes (R65); 6 and 7 are never produced. -/
def Status.code : Status → BitVec 3
  | .ok => 0
  | .okData => 1
  | .none => 2
  | .fault => 3
  | .refused => 4
  | .bpFull => 5

/-- The response word `{status, data}` at `ADDR_W = aw`, status in bits `[ADDR_W+2 : ADDR_W]`; `info` travels beside it
(R64). -/
def Response.word (aw : Nat) (r : Response) : RspWord aw :=
  (r.status.code ++ BitVec.ofNat aw r.data).cast (Nat.add_comm 3 aw)

/-- The Display State codes (R66). -/
def DisplayState.code : DisplayState → BitVec 2
  | .drawing => 0
  | .hblank => 1
  | .vblank => 2
  | .other => 3

/-- The notification a code `{valid, t}` stands for (R67): with `valid = 0` the `t` bits are ignored. -/
def transOfCode (c : BitVec 3) : Option DisplayState :=
  if c.getLsbD 2 then
    let t := c.extractLsb' 0 2
    some (if t = 0 then .drawing else if t = 1 then .hblank else if t = 2 then .vblank else .other)
  else none

/-- The code of a notification (R67); the ignored bits are written as zero. -/
def transCode : Option DisplayState → BitVec 3
  | none => 0
  | some t => 1#1 ++ t.code

/-- The predicate `running` as one bit (R68). -/
def HaltState.code (h : HaltState) : BitVec 1 := BitVec.ofBool h.isRunning

/-- `took` as one bit (R69). -/
def tookCode (took : Bool) : BitVec 1 := BitVec.ofBool took

/-- The `fault` bit of `CPU.step`'s result (R69); the fault value travels beside it. -/
def CpuResult.faultBit : CpuResult → BitVec 1
  | .ok => 0
  | .fault _ => 1

/-- The one cause code, `CPU_EXEC_FAULT` (R220). -/
def cpuExecFaultCause : Nat := 1

/-- The identifiers of the micro-operations (R70); 18 to 31 are unused. -/
def MicroOp.id : MicroOp → BitVec 5
  | .cpuCycles _ => 0
  | .cpuNextPc _ => 1
  | .cpuServiceInterrupt => 2
  | .cpuStep _ => 3
  | .dmaTryWork _ _ _ => 4
  | .dmaNotifyVblank => 5
  | .dmaNotifyHblank => 6
  | .timerAdvance _ _ _ => 7
  | .displayAdvance _ _ _ _ => 8
  | .displayState _ => 9
  | .displayFramebuffer _ => 10
  | .icPending _ => 11
  | .icMergeRequests _ => 12
  | .ioHaltRunning _ => 13
  | .ioSetRunning => 14
  | .ioSetKeyinput _ => 15
  | .backendPollInput _ => 16
  | .backendPresent _ => 17

end Sys2Proof.Machine
end

