-- ==== Sys2Proof/Safety.lean ====
section
/-!
DEFINITION. The terms in which claims are made: the invariant of the machine, the collaborators' contracts as named
premises (D19: "a theorem that needs a clause assumes it by name"), the shapes of a step's trace (spec/40_step.md R120),
and runs of several steps.

A contract clause is a Bool of the state in which the micro-operation is called, so that a claim assumes it of the very
calls a step makes and a witness can be evaluated.  The step function itself assumes none of them.
-/

namespace Sys2Proof.Machine

/-! ### The invariant -/

/-- The world's addresses and masks fit their widths (R23, R25). -/
def World.fits (b : BuildParameters) (w : World) : Bool :=
  decide (w.cpu.pc < 2 ^ b.addrW) && decide (w.cpu.nextPc < 2 ^ b.addrW) &&
    decide (w.io.ic.requested < 2 ^ b.irqW) && decide (w.io.ic.enabled < 2 ^ b.irqW)

/-- What every step keeps: the bus memory in canonical form, the breakpoint set without repeats (R18) and within its
capacity (R17), every address and mask within its width (R6, R11, R17, R23, R25, R64), an initial world as R30 asks it
(Display State not `VBlank`), and a sequencer that is idle when `FAULT` is set (R221) and has no response while a command
is in progress (R64). -/
structure State.Inv (s : State) : Prop where
  memory    : Memory.wf s.world.mem = true
  bpNodup   : s.bp.Nodup
  bpBound   : ∀ m, s.build.bpMax = some m → s.bp.length ≤ m
  bpWidth   : ∀ a ∈ s.bp, a < 2 ^ s.build.addrW
  irqWidth  : s.irqAcc < 2 ^ s.build.irqW
  worldFits : s.world.fits s.build = true
  dataWidth : ∀ r, s.response = some r → r.data < 2 ^ s.build.addrW
  w0Memory  : Memory.wf s.build.w0.mem = true
  w0Fits    : s.build.w0.fits s.build = true
  w0Display : s.build.w0.io.display.level ≠ .vblank
  faultIdle : s.fault = true → s.phase = .idle
  busy      : s.phase ≠ .idle → s.response = none

/-- The status of the last response. -/
def State.status (s : State) : Option Status := s.response.map (·.status)

/-- The next thing that happens is the caller's reset. -/
def State.resetsNext (s : State) : Bool := s.phase == .idle && s.caller.head? == some .reset

/-- A `FRAME` is in progress and at one of its loop tests. -/
def State.inLoop (s : State) : Bool := s.phase == .f2 || s.phase == .f3

/-- The loop test the sequencer rests at admits a step body (R142, R143). -/
def State.loopsOn (s : State) : Bool :=
  (s.phase == .f2 && !s.displayLevel.isVblank) || (s.phase == .f3 && s.displayLevel.isVblank)

/-! ### Where a step body calls its collaborators

`s` is the state in which the body begins.  Each is the state in which a call is made when the calls before it have
returned; whether they have is said apart (`State.bodyReturns`). -/

/-- The state in which `DMA.try_work` is called (S3). -/
def State.atDma (s : State) : State := s.phaseS1.readStart

/-- The state in which `IC.pending` is asked (S4), if it is. -/
def State.atQuery (s : State) : State := s.atDma.dmaTryWork

/-- The state in which `CPU.service_interrupt` is called (S4), if it is. -/
def State.atService (s : State) : State := s.atQuery.askPending

/-- The state in which `IO.set_running` is called (S4), if it is. -/
def State.atWake (s : State) : State := s.atService.serviceInterrupt

/-- The state in which `IO.halt_running` is read (S5), if it is. -/
def State.atHaltTest (s : State) : State := if s.atQuery.pending then s.atWake.setRunning else s.atService

/-- The state in which `CPU.step` is called (S5), if it is. -/
def State.atCpuStep (s : State) : State := s.atHaltTest.log (.ioHaltRunning true)

/-- Of the candidates for the cycle (R226): the DMA Engine takes it. -/
def State.dmaTakes (s : State) : Bool := s.atDma.dmaAnswer.took

/-- The DMA Engine declines and `IC.pending` answers 1. -/
def State.services (s : State) : Bool := !s.dmaTakes && s.atQuery.pending

/-- The DMA Engine declines and `IO.halt_running` answers 1. -/
def State.executes (s : State) : Bool := !s.dmaTakes && s.atHaltTest.running

/-- The DMA Engine declines and `IO.halt_running` answers 0. -/
def State.idles (s : State) : Bool := !s.dmaTakes && !s.atHaltTest.running

/-- `CPU.step` is called and returns a fault with this value. -/
def State.faultsWith (s : State) (info : FaultInfo) : Prop :=
  s.executes = true ∧ s.atCpuStep.cpuStepAnswer.result = .fault info

/-- No `CPU.step` of the body fails, so it reaches S6. -/
def State.completes (s : State) : Bool := !s.executes || s.atCpuStep.cpuStepAnswer.result == .ok

/-- The state after an instruction that succeeded (S5). -/
def State.executed (s : State) : State := s.atCpuStep.cpuStep.countElapsed

/-- The state after S5 of an idle step. -/
def State.idled (s : State) : State := (s.atHaltTest.log (.ioHaltRunning false)).idleTick

/-- The state in which `TIMER.advance` is called (S6), if it is. -/
def State.atTimer (s : State) : State :=
  if s.dmaTakes then s.atQuery.dmaTook else if s.executes then s.executed else s.idled

/-- The state in which `DISPLAY.advance` is called (S7), if it is. -/
def State.atDisplay (s : State) : State := s.atTimer.timerAdvance

/-- The state after the notifications of S7. -/
def State.edgeDone (s : State) : State :=
  match s.trans with
  | some .vblank => (s.readFramebuffer.present s.framebuffer).notifyVblank
  | some .hblank => s.notifyHblank
  | some .drawing => s
  | some .other => s
  | none => s

/-- The state in which `IC.merge_requests` is called (S8), if it is. -/
def State.atMerge (s : State) : State := s.atDisplay.displayAdvance.edgeDone

/-- The state after S6 to S8, from the state in which S6 begins. -/
def State.tailDone (s : State) : State := s.timerAdvance.displayAdvance.edgeDone.mergeRequests

/-- The state after a body that completes, when every call has returned. -/
def State.bodyDone (s : State) : State := s.atTimer.tailDone

/-- The bytes the collaborators store through the bus during a body, in order.  The scheduler stores none of its own
(R40). -/
def State.bodyWrites (s : State) : List Host.Cell :=
  s.atDma.dmaAnswer.writes
    ++ (if s.services then s.atService.cpuServiceAnswer.writes else [])
    ++ (if s.executes then s.atCpuStep.cpuStepAnswer.writes else [])
    ++ (if s.completes then s.atTimer.timerAnswer.writes ++ s.atDisplay.displayAnswer.writes else [])

/-! ### Every call returns (R180, D19, U5) -/

/-- The calls of the notifications of S7, each with the state in which it is made. -/
def State.edgeCalls (s : State) : List (State × Call) :=
  match s.trans with
  | some .vblank =>
    [(s, .displayFramebuffer), (s.readFramebuffer, .backendPresent s.framebuffer),
      (s.readFramebuffer.present s.framebuffer, .dmaNotifyVblank)]
  | some .hblank => [(s, .dmaNotifyHblank)]
  | some .drawing => []
  | some .other => []
  | none => []

/-- The calls of S4 and S5, which the DMA Engine has left the cycle. -/
def State.cpuCalls (s : State) : List (State × Call) :=
  [(s.atQuery, .icPending)]
    ++ (if s.services then [(s.atService, .cpuServiceInterrupt), (s.atWake, .ioSetRunning)] else [])
    ++ [(s.atHaltTest, .ioHaltRunning)]
    ++ (if s.executes then
          [(s.atCpuStep, .cpuStep)] ++ (if s.completes then [(s.atCpuStep.cpuStep, .cpuCycles)] else [])
        else [])

/-- The calls of a body in order, each with the state in which it is made when the ones before it have returned. -/
def State.bodyCalls (s : State) : List (State × Call) :=
  [(s.phaseS1, .cpuCycles), (s.atDma, .dmaTryWork 0)]
    ++ (if s.dmaTakes then [] else s.cpuCalls)
    ++ (if s.completes then
          [(s.atTimer, .timerAdvance s.atTimer.elapsed s.atTimer.irqAcc),
            (s.atDisplay, .displayAdvance s.atDisplay.elapsed s.atDisplay.irqAcc)]
          ++ s.atDisplay.displayAdvance.edgeCalls ++ [(s.atMerge, .icMergeRequests s.atMerge.irqAcc)]
        else [])

/-- The calls of F1 (R141), `s` the state in which it begins. -/
def State.inputCalls (s : State) : List (State × Call) :=
  [(s, .backendPollInput), (s.pollInput, .ioSetKeyinput s.polledKey)]

/-- Every call of a list returns. -/
def allReturn (cs : List (State × Call)) : Bool := cs.all fun p => p.1.returns p.2

/-- Every call of the body returns. -/
def State.bodyReturns (s : State) : Bool := allReturn s.bodyCalls

/-- Both calls of F1 return. -/
def State.inputReturns (s : State) : Bool := allReturn s.inputCalls

/-- The call of a loop test returns, and every call of the step body it admits. -/
def State.loopReturns (s : State) : Bool :=
  s.returns .displayState && (!s.loopsOn || s.readLevel.bodyReturns)

/-- The command `i` issued in `s` makes no call that does not return; a `FRAME` up to its first loop test. -/
def State.commandReturns (s : State) : Instr → Bool
  | .step => s.begin.bodyReturns
  | .frame => s.begin.inputReturns
  | .addBreakpoint _ => true
  | .checkBreakpoint => s.begin.returns .cpuNextPc

/-! ### The contracts of the collaborators (spec/43_collaborator_ops.md) -/

/-- R183: the entry routine does not decrease the Cycle Counter. -/
def State.serviceKeepsCounter (s : State) : Bool := decide (s.cycles ≤ s.cpuServiceAnswer.cpu.cycles)

/-- R192: `IC.pending` answers whether any requested and enabled interrupt is pending, by the controller's persistent
state (log 6). -/
def State.pendingContract (s : State) : Bool := s.pending == s.world.io.ic.anyEnabledRequest

/-- R195, D19: `IO.set_running` makes the Halt State Running. -/
def State.setRunningContract (s : State) : Bool := s.haltAnswer == .running

/-- R193: `IC.merge_requests` ORs `irq_acc` into the pending mask. -/
def State.mergeContract (s : State) : Bool := s.mergeAnswer == mergedRequests s.world.io.ic.requested s.irqAcc

/-- R181, R184: `CPU.step` does not decrease the Cycle Counter, and increases it strictly when it succeeds. -/
def State.stepRaisesCounter (s : State) : Bool :=
  decide (s.cycles ≤ s.cpuStepAnswer.cpu.cycles) &&
    (s.cpuStepAnswer.result != .ok || decide (s.cycles < s.cpuStepAnswer.cpu.cycles))

/-- The counter clauses for the calls a body makes. -/
def State.counterContract (s : State) : Bool :=
  (!s.services || s.atService.serviceKeepsCounter) && (!s.executes || s.atCpuStep.stepRaisesCounter)

/-- R195 for the call a body makes, if it makes one. -/
def State.bodyWakes (s : State) : Bool := !s.services || s.atWake.setRunningContract

/-- R193 for the call a body makes, if it makes one. -/
def State.bodyMerges (s : State) : Bool := !s.completes || s.atMerge.mergeContract

/-- R185, R188, R189(a): what is called adds bits to `irq_acc` and clears none. -/
def State.maskContract (s : State) : Bool :=
  bitsWithin s.atDma.irqAcc s.atDma.dmaAnswer.irqAcc &&
    (!s.completes || (bitsWithin s.atTimer.irqAcc s.atTimer.timerAnswer.irqAcc &&
      bitsWithin s.atDisplay.irqAcc s.atDisplay.displayAnswer.irqAcc))

/-- R189(c), faithful edges, for the call of `DISPLAY.advance` in this state: `some(VBlank)` exactly when the level was
not `VBlank` and is `VBlank`, and `some(HBlank)` only when the level has just become `HBlank`. -/
def State.faithfulEdge (s : State) : Bool :=
  let r := s.displayAnswer
  ((r.trans == some .vblank) == (!s.displayLevel.isVblank && r.io.display.level.isVblank)) &&
    (r.trans != some .hblank || (s.displayLevel != .hblank && r.io.display.level == .hblank))

/-- R189(d), level ownership, for the calls of a body: none but `DISPLAY.advance` changes the level.  (The calls not named
here, the pure reads, `DMA.notify_vblank`, `DMA.notify_hblank`, `IO.set_running` and `IC.merge_requests`, cannot by their
frames, R199.) -/
def State.levelOwned (s : State) : Bool :=
  s.atDma.dmaAnswer.io.display.level == s.displayLevel &&
    (!s.services || s.atService.cpuServiceAnswer.io.display.level == s.atService.displayLevel) &&
    (!s.executes || s.atCpuStep.cpuStepAnswer.io.display.level == s.atCpuStep.displayLevel) &&
    (!s.completes || s.atTimer.timerAnswer.io.display.level == s.atTimer.displayLevel)

/-- What `IO.set_keyinput` of F1 makes of the aggregate, `s` the state in which F1 begins. -/
def State.inputAnswer (s : State) : IoAggregate := s.pollInput.keyInputAnswer s.polledKey

/-- R196, for F1: `IO.set_keyinput(k)` writes `k` to the input-state register. -/
def State.inputWritten (s : State) : Bool := s.inputAnswer.keyInput == s.polledKey

/-- R189(d), level ownership, for the one call outside a body that could change the level: `IO.set_keyinput` in F1. -/
def State.inputKeepsLevel (s : State) : Bool := s.inputAnswer.display.level == s.displayLevel

/-- R189(c) and (d) for the calls of a body. -/
def State.displayContract (s : State) : Bool := s.levelOwned && (!s.completes || s.atDisplay.faithfulEdge)

/-- None of the device calls of a body changes the Interrupt Controller. -/
def State.devicesLeaveIcAlone (s : State) : Bool :=
  s.atDma.dmaAnswer.io.ic == s.world.io.ic &&
    (!s.completes || (s.atTimer.timerAnswer.io.ic == s.atTimer.world.io.ic &&
      s.atDisplay.displayAnswer.io.ic == s.atDisplay.world.io.ic))

/-! ### Determinism (R200) -/

/-- Determinism of the collaborators, the premise of D19: each of their operations is answered by a function of the world
and its arguments (the one of Config), so no answer waits in a queue.  `BACKEND.poll_input` is excepted (R200). -/
def State.deterministic (s : State) : Bool :=
  decide (s.env = { Environment.empty with polledKeys := s.env.polledKeys })

/-- Two states agree on what R200 lists: the world, the scheduler's persistent state, the build, and where the values
come from that no one determines (the polled keys, the unspecified `info`). -/
structure State.SameInputs (s t : State) : Prop where
  world     : s.world = t.world
  bp        : s.bp = t.bp
  fault     : s.fault = t.fault
  faultInfo : s.faultInfo = t.faultInfo
  build     : s.build = t.build
  keys      : s.env.polledKeys = t.env.polledKeys
  draws     : s.draws = t.draws

/-- Two states agree on what R9 lets an outsider see of the last command and of what a later one starts from. -/
structure State.SameBehaviour (s t : State) : Prop where
  inputs   : State.SameInputs s t
  trace    : s.trace = t.trace
  response : s.response = t.response
  phase    : s.phase = t.phase

/-! ### The shapes of a step's trace (R120) -/

/-- `T`, the tail of S7 for a notification. -/
inductive EdgeTrace : Option DisplayState → List MicroOp → Prop where
  | vblank (fb : FrameBuffer) :
      EdgeTrace (some .vblank) [.displayFramebuffer fb, .backendPresent fb, .dmaNotifyVblank]
  | hblank : EdgeTrace (some .hblank) [.dmaNotifyHblank]
  | drawing : EdgeTrace (some .drawing) []
  | other : EdgeTrace (some .other) []
  | noEdge : EdgeTrace none []

/-- `TIMER.advance(e), DISPLAY.advance(e), T, merge`, the bitmask handed on from `i`. -/
def TailTrace (e : Nat) (i : IrqMask) (tr : List MicroOp) : Prop :=
  ∃ j k trans edge, EdgeTrace trans edge ∧
    tr = [.timerAdvance e i j, .displayAdvance e j k trans] ++ edge ++ [.icMergeRequests k]

/-- The six shapes, and the seventh, `irqIdle`, which only the contract of `IO.set_running` excludes. -/
inductive Shape where
  | dmaTook
  | run
  | idle
  | irqRun
  | fault
  | irqFault
  | irqIdle
deriving DecidableEq, Repr

/-- The traces of a shape, for a step begun at counter value `c`. -/
def Shape.Trace (c : Nat) (tr : List MicroOp) : Shape → Prop
  | .dmaTook => ∃ i tail, TailTrace 0 i tail ∧ tr = [.cpuCycles c, .dmaTryWork 0 i true] ++ tail
  | .run => ∃ i c' tail, TailTrace (elapsedSince c c') i tail ∧
      tr = [.cpuCycles c, .dmaTryWork 0 i false, .icPending false, .ioHaltRunning true, .cpuStep .ok, .cpuCycles c'] ++ tail
  | .idle => ∃ i tail, TailTrace 1 i tail ∧
      tr = [.cpuCycles c, .dmaTryWork 0 i false, .icPending false, .ioHaltRunning false] ++ tail
  | .irqRun => ∃ i c' tail, TailTrace (elapsedSince c c') i tail ∧
      tr = [.cpuCycles c, .dmaTryWork 0 i false, .icPending true, .cpuServiceInterrupt, .ioSetRunning,
        .ioHaltRunning true, .cpuStep .ok, .cpuCycles c'] ++ tail
  | .fault => ∃ i info,
      tr = [.cpuCycles c, .dmaTryWork 0 i false, .icPending false, .ioHaltRunning true, .cpuStep (.fault info)]
  | .irqFault => ∃ i info,
      tr = [.cpuCycles c, .dmaTryWork 0 i false, .icPending true, .cpuServiceInterrupt, .ioSetRunning,
        .ioHaltRunning true, .cpuStep (.fault info)]
  | .irqIdle => ∃ i tail, TailTrace 1 i tail ∧
      tr = [.cpuCycles c, .dmaTryWork 0 i false, .icPending true, .cpuServiceInterrupt, .ioSetRunning,
        .ioHaltRunning false] ++ tail

/-- How many micro-operations of a trace have an identifier (R70). -/
def countOps (id : BitVec 5) (tr : List MicroOp) : Nat := (tr.filter (fun m => m.id == id)).length

/-! ### Transient registers -/

/-- The state with the five transient registers (R11 to R15) at the given values. -/
def State.withTransients (s : State) (irqAcc : IrqMask) (start elapsed : Nat) (took : Bool)
    (trans : Option DisplayState) : State :=
  { s with irqAcc := irqAcc, start := start, elapsed := elapsed, took := took, trans := trans }

/-- The state with the transient registers blanked: what survives a step (R10). -/
def State.lasting (s : State) : State := s.withTransients 0 0 0 false none

/-! ### Runs -/

/-- Zero or more loop tests of a `FRAME` in progress, with their step bodies, each body with a display that keeps its
contract (R189(c), (d)). -/
inductive FrameRun : State → State → Prop where
  | start (s : State) : FrameRun s s
  | more {s t u : State} : FrameRun s t → t.inLoop = true →
      (t.loopsOn = true → t.readLevel.displayContract = true) → step t = .next u → FrameRun s u

/-- A sequence of `STEP` calls, however they end, each with CPU calls that keep the counter contract. -/
inductive StepCalls : State → State → Prop where
  | start (s : State) : StepCalls s s
  | more {s t u : State} : StepCalls s t → t.begin.counterContract = true → exec .step t = .next u → StepCalls s u

/-- A sequence of `STEP` commands that all respond `OK`, each with CPU calls that keep the counter contract and a wake that
keeps R195: `e` is the sum of the elapsed counts handed to the peripherals, `k` the number of idle steps. -/
inductive StepsRun : State → Nat → Nat → State → Prop where
  | start (s : State) : StepsRun s 0 0 s
  | more {s t u : State} {e k : Nat} : StepsRun s e k t → t.begin.counterContract = true →
      t.begin.bodyWakes = true → exec .step t = .next u → u.status = some .ok →
      StepsRun s (e + u.elapsed) (k + if MicroOp.ioHaltRunning false ∈ u.trace then 1 else 0) u

/-- A sequence of `STEP` commands that all respond `OK`, that the DMA Engine takes, whose devices leave the Interrupt
Controller alone and whose merge keeps R193. -/
inductive TakenRun : State → State → Prop where
  | start (s : State) : TakenRun s s
  | more {s t u : State} : TakenRun s t → t.begin.dmaTakes = true → t.begin.devicesLeaveIcAlone = true →
      t.begin.bodyMerges = true → exec .step t = .next u → u.status = some .ok → TakenRun s u

end Sys2Proof.Machine
end

