-- ==== Sys2Proof/Certificates/Slice0/Obligations.lean ====
section
/-!
DEFINITION. The statements for the provers, in the order of OBLIGATIONS.json.

`s.begin` is the state in which the body of a `STEP` issued in `s` begins, `s.readLevel` the one in which the body after
a loop test of a `FRAME` begins.  `aw` and `s.build.addrW` are `ADDR_W`: a statement holds at every width.  Where a
statement needs a clause of a collaborator's contract it takes it as a premise under the name it has in
Sys2Proof/Safety.lean (D19).  That every call returns (R180) is one of them: `bodyReturns` for a step body, `inputReturns`
for F1 of a `FRAME`, `loopReturns` for a loop test; what happens otherwise is stated in the last section.
-/

open Sys2Proof Sys2Proof.Machine

/-! ### Encoding -/

/-- R61, R62 at `ADDR_W = 32`: words written out from the encoding, and what they decode to. -/
def Obligations.CommandWordsDecodeAsListed : Prop :=
  decode 32 0x000000000#34 = .step ∧
  decode 32 0x0DEADBEEF#34 = .step ∧
  decode 32 0x100000000#34 = .frame ∧
  decode 32 0x208000100#34 = .addBreakpoint 0x08000100 ∧
  decode 32 0x2FFFFFFFF#34 = .addBreakpoint 0xFFFFFFFF ∧
  decode 32 0x3FFFFFFFF#34 = .checkBreakpoint

/-- R62, R63, R71: the opcode map on every word of every `ADDR_W`, by the number in the `op` field; `arg` is the address of
`ADD_BREAKPOINT` and is ignored otherwise. -/
def Obligations.EveryWordDecodesByItsOpcode : Prop :=
  ∀ (aw : Nat) (w : CmdWord aw),
    (w.toNat / 2 ^ aw = 0 → decode aw w = .step) ∧
    (w.toNat / 2 ^ aw = 1 → decode aw w = .frame) ∧
    (w.toNat / 2 ^ aw = 2 → decode aw w = .addBreakpoint (w.toNat % 2 ^ aw)) ∧
    (w.toNat / 2 ^ aw = 3 → decode aw w = .checkBreakpoint)

/-- R61, R63, at every `ADDR_W`: decoding the encoding of a command gives the command, so no bit of an encoding is dropped;
what a word decodes to is well formed; and encoding it gives the word's `op`, and the word itself where `arg` is not
ignored. -/
def Obligations.DecodeAndEncodeAgree : Prop :=
  (∀ (aw : Nat) (i : Instr), i.WellFormed aw → decode aw (encode aw i) = i) ∧
  (∀ (aw : Nat) (w : CmdWord aw), (decode aw w).WellFormed aw ∧
    opField aw (encode aw (decode aw w)) = opField aw w ∧
    (opField aw w = 0b10#2 → encode aw (decode aw w) = w))

/-- R64, R65: the response word holds the status code above the data, at every `ADDR_W` and for every response whose data
has that width; the codes are the listed ones. -/
def Obligations.ResponseWordHoldsStatusAndData : Prop :=
  ∀ (aw : Nat) (r : Response),
    (r.data < 2 ^ aw → (r.word aw).toNat = r.status.code.toNat * 2 ^ aw + r.data) ∧
    (r.status.code = 0 ↔ r.status = .ok) ∧ (r.status.code = 1 ↔ r.status = .okData) ∧
    (r.status.code = 2 ↔ r.status = .none) ∧ (r.status.code = 3 ↔ r.status = .fault) ∧
    (r.status.code = 4 ↔ r.status = .refused) ∧ (r.status.code = 5 ↔ r.status = .bpFull)

/-- R67 (and the codes of R66): with `valid = 1` the notification is the Display State coded by `t`, with `valid = 0` it is
none whatever the `t` bits. -/
def Obligations.TransitionCodesReadBack : Prop :=
  (∀ t : Option DisplayState, transOfCode (transCode t) = t) ∧
  (∀ c : BitVec 3, c.toNat < 4 → transOfCode c = none) ∧
  (∀ (c : BitVec 3) (d : DisplayState), c.toNat = 4 + d.code.toNat → transOfCode c = some d) ∧
  DisplayState.drawing.code = 0 ∧ DisplayState.hblank.code = 1 ∧ DisplayState.vblank.code = 2 ∧
  DisplayState.other.code = 3

/-- R72: the command each line of a script stands for.  The four forms are `STEP`, `FRAME`, `ADD_BREAKPOINT` with an
address below `2^ADDR_W` and `CHECK_BREAKPOINT`, each for its own command and no other; a stray operand, a missing address
and an address of `2^ADDR_W` or more stand for none.  A line stands for a command exactly when it is well formed, and the
command is then well formed too. -/
def Obligations.ScriptLinesAssembleExactlyWhenWellFormed : Prop :=
  ∀ (aw : Nat) (l : ScriptLine),
    (∀ i, assembleLine aw l = some i ↔
      (l.mnemonic = .step ∧ l.operand = none ∧ i = .step) ∨
      (l.mnemonic = .frame ∧ l.operand = none ∧ i = .frame) ∨
      (∃ a, a < 2 ^ aw ∧ l.mnemonic = .addBreakpoint ∧ l.operand = some a ∧ i = .addBreakpoint a) ∨
      (l.mnemonic = .checkBreakpoint ∧ l.operand = none ∧ i = .checkBreakpoint)) ∧
    (l.mnemonic ≠ .addBreakpoint → l.operand ≠ none → assembleLine aw l = none) ∧
    (l.mnemonic = .addBreakpoint → l.operand = none → assembleLine aw l = none) ∧
    (∀ a, l.operand = some a → 2 ^ aw ≤ a → assembleLine aw l = none) ∧
    (l.wellFormed aw = true ↔ ∃ i, assembleLine aw l = some i ∧ i.WellFormed aw)

/-! ### Reset, and how a command comes to run -/

/-- R30: after reset, whatever the initial world `W0` and the capacity, the breakpoint set is empty, `FAULT` is 0, the
sequencer is idle and the collaborators are `W0`; in the `W0` of `State.reset` the Display State is not `VBlank`, which is
all R30 asks of it. -/
def Obligations.ResetLeavesSchedulerEmptyAndOperational : Prop :=
  (∀ b : BuildParameters,
    (State.resetWith b).bp = [] ∧ (State.resetWith b).fault = false ∧ (State.resetWith b).phase = .idle ∧
    (State.resetWith b).world = b.w0) ∧
  State.reset = State.resetWith State.reset.build ∧ State.reset.world.io.display.level ≠ .vblank

/-- The model's invariant (`State.Inv`) holds right after reset: of it, the canonical memory (log 5) and the reset values
of log 7 are the model's choice. -/
def Obligations.InvariantHoldsAtReset : Prop := State.reset.Inv

/-- When the scheduler is idle and the caller's next action is a command, one step is that command's meaning on the state
with the action taken off (R265, R275).  The second clause is about the model's own device for placing a command
(`withFetchWord`, the model's choice, log 13: it presents the word, numbered as at the default `ADDR_W`, and sets the
sequencer idle even where a `FRAME` is in progress or stuck): the next step is the command's meaning on the state itself, idle,
where the command is one of this build. -/
def Obligations.StepRunsTheDecodedCommand : Prop :=
  (∀ (s : State) (w : Nat) (rest : List CallerAction), s.phase = .idle → s.caller = .command w :: rest →
    step s = exec (decode s.build.addrW (BitVec.ofNat _ w)) { s with caller := rest }) ∧
  (∀ (s : State) (w : CmdWord 32), (decode 32 w).WellFormed s.build.addrW →
    step (s.withFetchWord 34 w.toNat) = exec (decode 32 w) { s with phase := .idle })

/-- R260, R275, R276: the caller's reset empties `bp`, clears `FAULT`, leaves the sequencer idle and restores the initial
world; the caller's change of the world, its addresses and masks taken at their widths, leaves `bp` and `FAULT` alone; and
when the caller does nothing, nothing happens.  (What a reset does to the list of the caller's actions, the build and the
last response, and that a value too wide is cut to its width, are the model's choices, logs 12 and 1.) -/
def Obligations.CallerActionsBetweenCommands : Prop :=
  (∀ (s : State) (rest : List CallerAction), s.phase = .idle → s.caller = .reset :: rest →
    ∃ t, step s = .next t ∧ t.bp = [] ∧ t.fault = false ∧ t.phase = .idle ∧ t.world = s.build.w0 ∧
      t.response = none ∧ t.caller = rest ∧ t.build = s.build) ∧
  (∀ (s : State) (rest : List CallerAction) (cpu : Cpu) (ws : List Host.Cell) (io : IoAggregate),
    s.phase = .idle → s.caller = .setWorld cpu ws io :: rest →
    step s = .next { s with
      caller := rest
      world :=
        { cpu := cpu.atWidths s.build, mem := Memory.writes ws s.world.mem, io := io.atWidths s.build } }) ∧
  (∀ s : State, s.phase = .idle → s.caller = [] → step s = .next s)

/-! ### After a fault -/

/-- R236, R145 (decision D15): while `FAULT = 1` every command issues no micro-operation, changes nothing, and responds
`REFUSED` with `FAULT_INFO`; and only the caller's reset clears `FAULT`. -/
def Obligations.EveryCommandIsRefusedAfterAFault : Prop :=
  (∀ (i : Instr) (s : State), s.fault = true →
    exec i s = .next { s with
      trace := []
      response := some { status := .refused, data := 0, info := s.faultInfo }
      phase := .idle }) ∧
  (∀ s t : State, s.Inv → s.fault = true → step s = .next t → (t.fault = false ↔ s.resetsNext = true))

/-- R19 (decision D15): `FAULT` is set only by a step that gives the response `FAULT`, with the value `FAULT_INFO` then
holds, and once set neither register changes until the caller resets, which clears it. -/
def Obligations.FaultLatchIsSetByAFaultAndClearedByReset : Prop :=
  ∀ s t : State, s.Inv → step s = .next t →
    (s.fault = false → t.fault = true → t.response = some { status := .fault, data := 0, info := t.faultInfo }) ∧
    (s.fault = true → s.resetsNext = false → t.fault = true ∧ t.faultInfo = s.faultInfo) ∧
    (s.resetsNext = true → t.fault = false)

/-! ### STEP -/

/-- The trace shapes (spec/40_step.md, "Trace shapes", an inference the spec marks as its own): a `STEP` with `FAULT = 0`
whose calls all return ends, in exactly one trace shape; A to D respond `OK`, E and F respond `FAULT`.  The seventh shape,
irq and idle, which responds `OK`, occurs exactly when an interrupt is serviced and the machine is not Running at the test
of S5, so never with a wake that keeps the contract of `IO.set_running` (`bodyWakes`, a premise, log 15). -/
def Obligations.StepTraceHasExactlyOneShape : Prop :=
  ∀ s : State, s.fault = false → s.begin.bodyReturns = true →
    ∃ t, exec .step s = .next t ∧ (∃! sh : Shape, sh.Trace s.cycles t.trace) ∧
      ((∃ sh : Shape, sh.Trace s.cycles t.trace ∧ (sh = .fault ∨ sh = .irqFault)) ↔ t.status = some .fault) ∧
      (t.status = some .ok ∨ t.status = some .fault) ∧
      (Shape.Trace s.cycles t.trace .irqIdle ↔ s.begin.services = true ∧ s.begin.idles = true) ∧
      (s.begin.bodyWakes = true → ¬ Shape.Trace s.cycles t.trace .irqIdle)

/-- R105: when the DMA Engine takes the cycle the `STEP` completes with `elapsed = 0`, the CPU (program counter and
cycle counter included) is not touched, the timers and the display are advanced by 0, and the trace is shape A. -/
def Obligations.StepTakenByDmaLeavesTheCpuAlone : Prop :=
  ∀ s : State, s.fault = false → s.begin.bodyReturns = true → s.begin.dmaTakes = true →
    ∃ t, exec .step s = .next t ∧ t.status = some .ok ∧ t.took = true ∧ t.elapsed = 0 ∧
      t.world.cpu = s.world.cpu ∧ Shape.Trace s.cycles t.trace .dmaTook

/-- R108: the DMA Engine declines, the machine is Running when S5 reads the Halt State (woken in S4 or not) and the
instruction succeeds: exactly one `CPU.step`, `elapsed` is the counter's delta since S2, response `OK`, and the CPU is left
as `CPU.step` left it.  In a step that serviced an interrupt `CPU.step` is called on the CPU the entry routine left. -/
def Obligations.StepExecutesOneInstruction : Prop :=
  ∀ s : State, s.fault = false → s.begin.bodyReturns = true → s.begin.executes = true →
    s.begin.atCpuStep.cpuStepAnswer.result = .ok →
    (s.begin.services = true → s.begin.atCpuStep.world.cpu = s.begin.atService.cpuServiceAnswer.cpu) ∧
    ∃ t, exec .step s = .next t ∧ t.status = some .ok ∧ countOps 3 t.trace = 1 ∧
      t.world.cpu = s.begin.atCpuStep.cpuStepAnswer.cpu ∧
      t.elapsed = elapsedSince s.cycles t.cycles ∧
      Shape.Trace s.cycles t.trace (if s.begin.services then .irqRun else .run)

/-- The DMA Engine declines and an interrupt is pending (R107, and R108 for what follows the wake): whatever the Halt
State was, the query, the entry routine and the wake happen in that order in this step; and with a wake that keeps the
contract of `IO.set_running` (`bodyWakes`, R195; a premise, log 15) the halt test then answers 1 and one
instruction runs, and when it succeeds the step completes with an `elapsed` that covers entry and instruction. -/
def Obligations.StepServicesInterruptWakesAndExecutes : Prop :=
  ∀ s : State, s.fault = false → s.begin.bodyReturns = true → s.begin.services = true →
    ∃ t, exec .step s = .next t ∧ [.icPending true, .cpuServiceInterrupt, .ioSetRunning] <:+: t.trace ∧
      (s.begin.bodyWakes = true →
        [.icPending true, .cpuServiceInterrupt, .ioSetRunning, .ioHaltRunning true,
          .cpuStep s.begin.atCpuStep.cpuStepAnswer.result] <:+: t.trace ∧
        (s.begin.atCpuStep.cpuStepAnswer.result = .ok →
          t.status = some .ok ∧ t.world.cpu = s.begin.atCpuStep.cpuStepAnswer.cpu ∧
          t.elapsed = elapsedSince s.cycles t.cycles ∧ Shape.Trace s.cycles t.trace .irqRun))

/-- R110: the DMA Engine declines and the machine is not Running at the test of S5: `elapsed = 1`, no instruction runs,
response `OK`.  The CPU is untouched, but by the entry routine in a step that serviced an interrupt, which the contract of
`IO.set_running` excludes; otherwise the trace is shape C. -/
def Obligations.StepOfAHaltedMachineIsAnIdleTick : Prop :=
  ∀ s : State, s.fault = false → s.begin.bodyReturns = true → s.begin.idles = true →
    ∃ t, exec .step s = .next t ∧ t.status = some .ok ∧ t.elapsed = 1 ∧ countOps 3 t.trace = 0 ∧
      t.world.cpu = (if s.begin.services then s.begin.atService.cpuServiceAnswer.cpu else s.world.cpu) ∧
      Shape.Trace s.cycles t.trace (if s.begin.services then .irqIdle else .idle) ∧
      (s.begin.bodyWakes = true → s.begin.services = false)

/-- R109: when `CPU.step` returns `fault(info)` the step stops there: `FAULT = 1`, `FAULT_INFO = info`, response `FAULT`
with `info`, and `CPU.step` is the last micro-operation; the world is the one `CPU.step` left, so nothing done before is
undone and the step's `irq_acc` is not merged; nothing is presented. -/
def Obligations.StepStopsAtAFatalFault : Prop :=
  ∀ (s : State) (info : FaultInfo), s.fault = false → s.begin.bodyReturns = true → s.begin.faultsWith info →
    ∃ t, exec .step s = .next t ∧ t.fault = true ∧ t.faultInfo = info ∧ t.phase = .idle ∧
      t.response = some { status := .fault, data := 0, info := info } ∧
      t.world = s.begin.atCpuStep.cpuStep.world ∧
      t.trace = s.begin.atCpuStep.trace ++ [.cpuStep (.fault info)] ∧
      t.presented = s.presented

/-- R112: in a step that reaches S6 exactly one of the three cases holds, and it gives `elapsed`; the same value goes to
the timers and to the display.  The idle case does not follow an interrupt entry, by the contract of `IO.set_running`
(`bodyWakes`, R123). -/
def Obligations.ElapsedIsZeroDeltaOrOne : Prop :=
  ∀ s t : State, s.fault = false → exec .step s = .next t → t.status = some .ok →
    ((s.begin.dmaTakes = true ∧ s.begin.executes = false ∧ s.begin.idles = false ∧ t.elapsed = 0) ∨
    (s.begin.dmaTakes = false ∧ s.begin.executes = true ∧ s.begin.idles = false ∧
      t.elapsed = elapsedSince s.cycles t.cycles) ∨
    (s.begin.dmaTakes = false ∧ s.begin.executes = false ∧ s.begin.idles = true ∧
      (s.begin.bodyWakes = true → s.begin.services = false) ∧ t.elapsed = 1)) ∧
    (s.cycles ≤ t.cycles → elapsedSince s.cycles t.cycles = t.cycles - s.cycles) ∧
    ∃ i j k, [.timerAdvance t.elapsed i j, .displayAdvance t.elapsed j k t.trans] <:+: t.trace

/-- R114 to R116: the notification the display returned decides what S7 does after the advance.  On `some(VBlank)` the
framebuffer snapshot is read, presented and the DMA Engine notified, in that order; on `some(HBlank)` the DMA Engine is
notified; otherwise nothing is issued.  Nothing is presented but on `some(VBlank)`. -/
def Obligations.DisplayEdgeDecidesPresentationAndNotification : Prop :=
  ∀ s t : State, s.fault = false → exec .step s = .next t → t.status = some .ok →
    t.presented = s.presented ++ (if t.trans = some .vblank then [t.framebuffer] else []) ∧
    ∃ j, [.displayAdvance t.elapsed j t.irqAcc t.trans]
      ++ (if t.trans = some .vblank then
            [.displayFramebuffer t.framebuffer, .backendPresent t.framebuffer, .dmaNotifyVblank]
          else if t.trans = some .hblank then [.dmaNotifyHblank] else [])
      ++ [.icMergeRequests t.irqAcc] <:+ t.trace

/-- R118: the last micro-operation of a completed step is `IC.merge_requests(irq_acc)`, `irq_acc` being what the display's
call left; it changes the pending mask that the display's call left and nothing else of the Interrupt Controller, and with
the contract of `IC.merge_requests` (`bodyMerges`, R193) it ORs `irq_acc` into it, so clears no bit and with `irq_acc = 0`
changes nothing. -/
def Obligations.RequestsAreMergedAtTheEndOfTheStep : Prop :=
  ∀ s : State, s.fault = false → s.begin.bodyReturns = true → s.begin.completes = true →
    ∃ t, exec .step s = .next t ∧ t.status = some .ok ∧
      t.irqAcc = s.begin.atDisplay.displayAnswer.irqAcc ∧
      t.world.io.ic.enabled = s.begin.atDisplay.displayAnswer.io.ic.enabled ∧
      (s.begin.bodyMerges = true →
        t.world.io.ic.requested = s.begin.atDisplay.displayAnswer.io.ic.requested ||| t.irqAcc ∧
        bitsWithin s.begin.atDisplay.displayAnswer.io.ic.requested t.world.io.ic.requested = true ∧
        (t.irqAcc = 0 → t.world.io.ic = s.begin.atDisplay.displayAnswer.io.ic)) ∧
      t.trace.getLast? = some (.icMergeRequests t.irqAcc)

/-- Peripheral advance is unconditional (spec/40_step.md, an inference the spec marks as its own): a `STEP` that does not
fault issues exactly one `TIMER.advance`, then exactly one `DISPLAY.advance`, both with the same count, then exactly one
`IC.merge_requests`; a faulting one issues none of the three. -/
def Obligations.PeripheralsAdvanceOncePerCompletedStep : Prop :=
  ∀ s t : State, s.fault = false → exec .step s = .next t →
    (t.status = some .ok →
      countOps 7 t.trace = 1 ∧ countOps 8 t.trace = 1 ∧ countOps 12 t.trace = 1 ∧
      ∃ i j k edge, [.timerAdvance t.elapsed i j, .displayAdvance t.elapsed j k t.trans] ++ edge ++
        [.icMergeRequests k] <:+ t.trace) ∧
    (t.status = some .fault →
      countOps 7 t.trace = 0 ∧ countOps 8 t.trace = 0 ∧ countOps 12 t.trace = 0)

/-- Boundedness (spec/40_step.md, an inference the spec marks as its own): a `STEP` with `FAULT = 0` has at most 14
micro-operations, and, when every call returns, at least 5; a refused one has none. -/
def Obligations.StepIssuesFiveToFourteenMicroOperations : Prop :=
  ∀ s : State, ∃ t, exec .step s = .next t ∧
    (s.fault = false → (s.begin.bodyReturns = true → 5 ≤ t.trace.length) ∧ t.trace.length ≤ 14) ∧
    (s.fault = true → t.trace = [])

/-- One-step interrupt latency (spec/40_step.md, an inference the spec marks as its own), with the contract of
`IC.pending` (`pendingContract`; its form is the model's reading, log 6): the query of S4 answers from the Interrupt
Controller as the DMA Engine's call left it, whatever that call put into `irq_acc`; and a bit raised in a completed step
whose source is enabled, merged as R193 says (`bodyMerges`), makes the query answer 1 afterwards. -/
def Obligations.RequestIsNotSeenInTheStepThatRaisesIt : Prop :=
  ∀ s : State, s.fault = false → s.begin.bodyReturns = true → s.begin.dmaTakes = false →
    s.begin.atQuery.pendingContract = true →
    ∃ t, exec .step s = .next t ∧
      [.cpuCycles s.cycles, .dmaTryWork 0 s.begin.atDma.dmaAnswer.irqAcc false,
        .icPending s.begin.atDma.dmaAnswer.io.ic.anyEnabledRequest] <+: t.trace ∧
      (t.status = some .ok → s.begin.bodyMerges = true → t.irqAcc &&& t.world.io.ic.enabled ≠ 0 →
        t.pendingContract = true → t.pending = true)

/-- One-step interrupt latency, what follows (spec/40_step.md, the same inference; the form of the query is the model's
reading, log 6): an enabled request raised in a `STEP` waits over any number of completed `STEP`s that the DMA Engine takes
and whose devices leave the Interrupt Controller alone, in none of which the entry routine runs; and in the first later
`STEP` that the DMA Engine declines, leaving the Interrupt Controller alone, the entry routine runs, once, if the calls of
that `STEP` return. -/
def Obligations.RaisedRequestIsServicedInTheNextDeclinedStep : Prop :=
  ∀ s t u : State, s.fault = false → s.begin.bodyMerges = true → exec .step s = .next t → t.status = some .ok →
    t.irqAcc &&& t.world.io.ic.enabled ≠ 0 → TakenRun t u →
    ∃ v, exec .step u = .next v ∧
      (u.begin.dmaTakes = true → countOps 2 v.trace = 0) ∧
      (u.begin.dmaTakes = false → u.begin.atDma.dmaAnswer.io.ic = u.world.io.ic →
        u.begin.atQuery.pendingContract = true → u.begin.bodyReturns = true → countOps 2 v.trace = 1)

/-- The frame of `STEP` (R127, R40): the breakpoint set, the build parameters, what the caller does next and the polled
keys are unchanged; no key is polled, no input register written, no level or next address read; `FAULT` and `FAULT_INFO`
are unchanged unless the response is `FAULT`; the CPU is unchanged unless the body calls it; bus memory is what the
collaborators called stored, and every byte none of them stores to reads as before, also in a `STEP` that is stuck. -/
def Obligations.StepFrame : Prop :=
  ∀ s : State, s.fault = false →
    ∃ t, exec .step s = .next t ∧
      t.bp = s.bp ∧ t.build = s.build ∧ t.caller = s.caller ∧ (s.begin.bodyReturns = true → t.phase = .idle) ∧
      t.env.polledKeys = s.env.polledKeys ∧ t.env.keyInputEffect = s.env.keyInputEffect ∧
      countOps 1 t.trace = 0 ∧ countOps 9 t.trace = 0 ∧ countOps 15 t.trace = 0 ∧ countOps 16 t.trace = 0 ∧
      (t.status ≠ some .fault → t.fault = false ∧ t.faultInfo = s.faultInfo) ∧
      (s.begin.services = false → s.begin.executes = false → t.world.cpu = s.world.cpu) ∧
      (s.begin.bodyReturns = true → t.world.mem = Memory.writes s.begin.bodyWrites s.world.mem) ∧
      ∀ a, (∀ c ∈ s.begin.bodyWrites, c.1 ≠ a) → Memory.read t.world.mem a = Memory.read s.world.mem a

/-- The step-monotonicity property (spec/40_step.md, "Step monotonicity", an inference the spec marks as its own from the
counter contract): over any sequence of `STEP` calls the cycle counter does not decrease, and in a `STEP` that completes,
with a wake that keeps R195 (`bodyWakes`), it is unchanged exactly when the DMA Engine took the cycle or the Halt State
read in S5 was not Running. -/
def Obligations.StepNeverDecreasesTheCycleCounter : Prop :=
  (∀ s t : State, StepCalls s t → s.cycles ≤ t.cycles) ∧
  (∀ s : State, s.begin.counterContract = true → s.begin.bodyWakes = true →
    ∃ t, exec .step s = .next t ∧
      (t.status = some .ok →
        (t.cycles = s.cycles ↔ t.took = true ∨ MicroOp.ioHaltRunning false ∈ t.trace)))

/-- R185, R188, R189(a), R225: with collaborators that only add bits (`maskContract`) and a merge that ORs (`bodyMerges`),
every bit the DMA Engine raised is still in `irq_acc` at S8 and so in the pending mask after a completed step. -/
def Obligations.RaisedBitsReachThePendingMask : Prop :=
  ∀ s t : State, s.fault = false → s.begin.maskContract = true → s.begin.bodyMerges = true →
    exec .step s = .next t → t.status = some .ok →
    bitsWithin s.begin.atDma.dmaAnswer.irqAcc t.irqAcc = true ∧
    bitsWithin t.irqAcc t.world.io.ic.requested = true

/-- R272: over any number of `STEP`s that all complete, with a CPU that keeps the counter contract and a wake that keeps
R195, the cycles the peripherals have received equal the counter's delta plus the number of idle steps. -/
def Obligations.PeripheralCyclesAreDeltaPlusIdleSteps : Prop :=
  ∀ (s t : State) (e k : Nat), StepsRun s e k t → s.cycles + e = t.cycles + k ∧ s.cycles ≤ t.cycles

/-- R10, R30, U14: no transient register is read before it is written: two states that differ only in `irq_acc`, `start`,
`elapsed`, `took` and `trans` step to states that differ at most in those. -/
def Obligations.TransientRegistersCarryNothingBetweenSteps : Prop :=
  ∀ (s : State) (i : IrqMask) (a b : Nat) (k : Bool) (tr : Option DisplayState),
    ∃ t u, step s = .next t ∧ step (s.withTransients i a b k tr) = .next u ∧ t.lasting = u.lasting

/-! ### FRAME -/

/-- R141: `FRAME` with `FAULT = 0`, its two calls returning, first takes one key sample from the Backend and hands it on
unchanged to `IO.set_keyinput`, before any step and whatever the Display State, and is then at the loop test F2; with the
contract of that operation (`inputWritten`, R196) the sample is in the input-state register.  No step has run and nothing
is presented, and the CPU, the bus memory and the breakpoint set are untouched.  No loop test or step body of the `FRAME`,
and no `STEP`, polls or writes it again. -/
def Obligations.FrameSamplesTheInputOnceAndEntersItsLoop : Prop :=
  (∀ s : State, s.fault = false → s.begin.inputReturns = true →
    ∃ t, exec .frame s = .next t ∧ t.phase = .f2 ∧ t.response = none ∧
      (s.begin.inputWritten = true → t.world.io.keyInput = s.polledKey) ∧
      t.trace = [.backendPollInput s.polledKey, .ioSetKeyinput s.polledKey] ∧
      t.env.polledKeys = s.env.polledKeys.tail ∧
      t.world.cpu = s.world.cpu ∧ t.world.mem = s.world.mem ∧ t.bp = s.bp ∧ t.fault = false ∧
      t.faultInfo = s.faultInfo ∧ t.presented = s.presented ∧ t.caller = s.caller ∧ t.build = s.build) ∧
  (∀ s : State, s.phase ≠ .idle → ∃ t, step s = .next t ∧
    countOps 15 t.trace = countOps 15 s.trace ∧ countOps 16 t.trace = countOps 16 s.trace) ∧
  (∀ s : State, ∃ t, exec .step s = .next t ∧ countOps 15 t.trace = 0 ∧ countOps 16 t.trace = 0)

/-- R142, R143, R144: one loop test of a `FRAME` in progress whose calls all return.  F2 with the level at `VBlank` goes to
F3; F2 otherwise, and F3 with the level at `VBlank`, run one step body and stay at the same test if it completes, and end
with the body's fault if it faults; F3 otherwise responds `OK`. -/
def Obligations.FrameLoopTestsTheLevelAndRunsOneBody : Prop :=
  ∀ s : State, s.inLoop = true → s.loopReturns = true →
    ∃ t, step s = .next t ∧
      (s.phase = .f2 → s.displayLevel = .vblank → t = { s.readLevel with phase := .f3 }) ∧
      (s.phase = .f3 → s.displayLevel ≠ .vblank → t = s.readLevel.respond .ok 0) ∧
      (s.loopsOn = true →
        (s.readLevel.completes = true →
          t = s.readLevel.bodyDone ∧ t.phase = s.phase ∧ t.response = s.response) ∧
        (∀ info, s.readLevel.faultsWith info →
          t.phase = .idle ∧ t.fault = true ∧ t.faultInfo = info ∧
          t.response = some { status := .fault, data := 0, info := info } ∧
          t.world = s.readLevel.atCpuStep.cpuStep.world ∧ t.presented = s.presented))

/-- R148, R144: a `FRAME` in progress that responds in a step responds `OK` with the Display State outside `VBlank`, or
`FAULT`; and it responds nothing else. -/
def Obligations.FrameEndsOutsideVblankOrInAFault : Prop :=
  ∀ s t : State, s.phase ≠ .idle → s.fault = false → step s = .next t → t.phase = .idle →
    (t.status = some .ok ∧ t.fault = false ∧ s.phase = .f3 ∧ t.displayLevel ≠ .vblank) ∨
    (t.status = some .fault ∧ t.fault = true)

/-- The two loops of `FRAME` together (R142, R143; spec/41_frame.md, "State on return", an inference the spec marks as its
own): a `FRAME` whose level is outside `VBlank` at its first `n` tests, in `VBlank` at the next, in `VBlank` at the first
`m` tests of F3 and outside it at the one after, every call returning and none of its bodies faulting, runs its first tests
in F2 and the others in F3, and then responds `OK` with the level outside `VBlank`. -/
def Obligations.FrameRespondsWhenTheLevelHasEnteredAndLeftVblank : Prop :=
  ∀ (s : State) (r : Nat → State) (n m : Nat), s.fault = false → s.begin.inputReturns = true →
    exec .frame s = .next (r 0) →
    (∀ k ≤ n + m + 1, step (r k) = .next (r (k + 1)) ∧ (r k).fault = false ∧ (r k).loopReturns = true) →
    (∀ k < n, (r k).displayLevel ≠ .vblank) → (r n).displayLevel = .vblank →
    (∀ k, n < k → k ≤ n + m → (r k).displayLevel = .vblank) → (r (n + m + 1)).displayLevel ≠ .vblank →
    (∀ k ≤ n, (r k).phase = .f2) ∧ (∀ k, n < k → k ≤ n + m + 1 → (r k).phase = .f3) ∧
    (r (n + m + 2)).phase = .idle ∧ (r (n + m + 2)).status = some .ok ∧ (r (n + m + 2)).displayLevel ≠ .vblank

/-- The number of presentations (spec/41_frame.md, "Number of presentations", an inference the spec marks as its own from
the display's contract): with a display that keeps its contract (faithful edges, and level ownership both in the bodies and
in F1), a `FRAME` that completes presents exactly one frame if it started outside `VBlank` and none if it started in
`VBlank`, and ends outside `VBlank`; the one presentation is made in the last step of F2, so none was made at an F2 test
outside `VBlank` and none is made in F3. -/
def Obligations.CompletedFramePresentsExactlyOnceFromOutsideVblank : Prop :=
  ∀ s t : State, s.fault = false → exec .frame s = .next t → s.begin.inputKeepsLevel = true →
    ∀ u, FrameRun t u →
      (u.phase = .f2 → u.displayLevel ≠ .vblank → u.presented = s.presented) ∧
      (u.phase = .f3 →
        u.presented.length = s.presented.length + (if s.displayLevel = .vblank then 0 else 1)) ∧
      (u.phase = .idle → u.status = some .ok →
        u.presented.length = s.presented.length + (if s.displayLevel = .vblank then 0 else 1) ∧
        u.displayLevel ≠ .vblank)

/-- Termination is not guaranteed by the scheduler (spec/41_frame.md, an inference the spec marks as its own): a `FRAME`
whose calls return does not respond while the Display State has not been seen in `VBlank` and no body has faulted, however
many steps it runs; and for every number of steps there is a `FRAME` in progress that has not responded after any number of
steps up to it, the DMA Engine asked once in each of them and taking the cycle in each, and the cycle counter standing
still. -/
def Obligations.FrameCanRunForAnyNumberOfStepsWithoutResponse : Prop :=
  (∀ (n : Nat) (s t : State), s.phase = .f2 → Sys2Proof.core.run n s = .next t →
    (∀ k < n, ∀ v : State, Sys2Proof.core.run k s = .next v →
      v.displayLevel ≠ .vblank ∧ v.loopReturns = true) →
    (∀ k ≤ n, ∀ v : State, Sys2Proof.core.run k s = .next v → v.fault = false) →
    t.phase = .f2 ∧ t.response = s.response) ∧
  (∀ n : Nat, ∃ s : State, s.phase = .f2 ∧ s.response = none ∧
    ∀ k ≤ n, ∃ t : State, Sys2Proof.core.run k s = .next t ∧ t.phase = .f2 ∧ t.response = none ∧
      t.cycles = s.cycles ∧ countOps 4 t.trace = countOps 4 s.trace + k ∧ (0 < k → t.took = true))

/-- The frame of one loop test of a `FRAME` (R151, R127, R40): the breakpoint set, the build parameters, what the caller
does next and the input queue are unchanged, the frames presented before stay presented; `FAULT` and `FAULT_INFO` are
unchanged unless the step responds `FAULT`; the CPU is unchanged unless a body runs that calls it; bus memory is what the
collaborators of the body stored, and every byte none of them stores to reads as before, also in a body that is stuck. -/
def Obligations.FrameLoopFrame : Prop :=
  ∀ s : State, s.inLoop = true →
    ∃ t, step s = .next t ∧ t.bp = s.bp ∧ t.build = s.build ∧ t.caller = s.caller ∧
      t.env.polledKeys = s.env.polledKeys ∧ t.env.keyInputEffect = s.env.keyInputEffect ∧
      s.presented <+: t.presented ∧
      ((t.fault = s.fault ∧ t.faultInfo = s.faultInfo) ∨ t.status = some .fault) ∧
      (s.loopsOn = false → t.world = s.world) ∧
      (s.readLevel.services = false → s.readLevel.executes = false → t.world.cpu = s.world.cpu) ∧
      (s.loopsOn = true →
        (s.loopReturns = true → t.world.mem = Memory.writes s.readLevel.bodyWrites s.world.mem) ∧
        ∀ a, (∀ c ∈ s.readLevel.bodyWrites, c.1 ≠ a) → Memory.read t.world.mem a = Memory.read s.world.mem a)

/-! ### The breakpoint commands -/

/-- R160: `ADD_BREAKPOINT` with `FAULT = 0` issues no micro-operation and does what the first of three tests says: a
duplicate answers `NONE`, a full set answers `BP_FULL`, both with the set unchanged; otherwise the address is appended and
its position, counted from 0 (decision D13), is answered.  Everything else is unchanged.  With `FAULT = 1` it is refused
and the set is unchanged. -/
def Obligations.AddBreakpointAppendsAnswersDuplicateOrFull : Prop :=
  (∀ (a : Addr) (s : State), s.fault = false →
    ∃ info, exec (.addBreakpoint a) s = .next { s with
      bp := if a ∈ s.bp ∨ s.build.bpMax = some s.bp.length then s.bp else s.bp ++ [a]
      response := some
        (if a ∈ s.bp then { status := .none, data := 0, info := info }
        else if s.build.bpMax = some s.bp.length then { status := .bpFull, data := 0, info := info }
        else { status := .okData, data := s.bp.length % 2 ^ s.build.addrW, info := info })
      trace := []
      phase := .idle
      draws := s.draws + 1 }) ∧
  (∀ (a : Addr) (s : State), s.fault = true →
    ∃ t, exec (.addBreakpoint a) s = .next t ∧ t.bp = s.bp ∧
      t.response = some { status := .refused, data := 0, info := s.faultInfo })

/-- R164, R165: in a state that keeps the invariant a successful addition, of an address of the build's width, answers a
position that is exact (no wrap in the `data` field) and at which the address then stands. -/
def Obligations.AnsweredPositionIsWhereTheAddressStands : Prop :=
  ∀ (a : Addr) (s t : State), s.Inv → (Instr.addBreakpoint a).WellFormed s.build.addrW →
    exec (.addBreakpoint a) s = .next t → t.status = some .okData →
    ∃ r, t.response = some r ∧ r.data = s.bp.length ∧ t.bp[r.data]? = some a ∧
      ∀ j, j < s.bp.length → t.bp[j]? = s.bp[j]?

/-- R161, R166: `CHECK_BREAKPOINT` with `FAULT = 0` issues one `CPU.next_pc`, and when it has returned answers the
next-instruction address itself when it is exactly one of the entries, otherwise `NONE`; it changes nothing else.  With
`FAULT = 1` it is refused and does not ask for the address. -/
def Obligations.CheckBreakpointAnswersTheNextAddressIfPresent : Prop :=
  (∀ s : State, s.fault = false → s.begin.returns .cpuNextPc = true →
    ∃ info, exec .checkBreakpoint s = .next { s with
      env := s.env.returned
      response := some
        (if s.nextPc ∈ s.bp then { status := .okData, data := s.nextPc, info := info }
        else { status := .none, data := 0, info := info })
      trace := [.cpuNextPc s.nextPc]
      phase := .idle
      draws := s.draws + 1 }) ∧
  (∀ s : State, s.fault = true →
    ∃ t, exec .checkBreakpoint s = .next t ∧ t.trace = [] ∧
      t.response = some { status := .refused, data := 0, info := s.faultInfo })

/-- The source's example (R160, R161): `ADD_BREAKPOINT A` twice in a row gives an index and then no index, and a check
(whose call returns) with the next-instruction address at `A` answers `A`, at any other address not in the set before,
nothing. -/
def Obligations.BreakpointAddedTwiceThenChecked : Prop :=
  ∀ (a : Addr) (s : State), s.fault = false → s.begin.returns .cpuNextPc = true → a ∉ s.bp →
    s.build.bpMax = none →
    ∃ t u, exec (.addBreakpoint a) s = .next t ∧ t.status = some .okData ∧
      exec (.addBreakpoint a) t = .next u ∧ u.status = some .none ∧ u.bp = t.bp ∧
      ∃ v, exec .checkBreakpoint u = .next v ∧
        (s.nextPc = a → v.response.map (·.data) = some a ∧ v.status = some .okData) ∧
        (s.nextPc ≠ a → s.nextPc ∉ s.bp → v.status = some .none)

/-- R18, R163, R164: a step never removes, replaces or reorders an entry of the breakpoint set, and adds at most one,
unless the caller resets. -/
def Obligations.BreakpointSetOnlyGrowsUntilReset : Prop :=
  ∀ s t : State, step s = .next t → s.resetsNext = false →
    s.bp <+: t.bp ∧ t.bp.length ≤ s.bp.length + 1

/-! ### The invariant, and the micro-operations -/

/-- Every step keeps the model's invariant: the bus memory canonical (log 5), the breakpoint set without repeats and within
its capacity, every address and mask within its width (log 1), the sequencer idle when `FAULT` is set, no response while a
command is in progress (log 11), and the build parameters legal. -/
def Obligations.EveryStepKeepsTheInvariant : Prop :=
  ∀ s t : State, s.Inv → step s = .next t → t.Inv

/-- The machine never stops: every step has a next state (R220: the one fatal fault is a response and a latch; a stuck
command stays as it is, U5). -/
def Obligations.EveryStepHasANextState : Prop :=
  ∀ s : State, ∃ t, step s = .next t

/-- The frames of spec/43_collaborator_ops.md (R199): `IC.merge_requests` may change the pending mask and nothing else of
the world, and with its contract (R193) it ORs, and with 0 changes nothing; `IO.set_running` may change the Halt State and
nothing else, and with its contract (R195) `IO.halt_running` then answers 1; `IC.pending` changes nothing of the world; an
operation that is not handed the CPU does not change it; the edge notifications change the DMA Engine only;
`IO.set_keyinput` may change the IO-device aggregate only; polling a key and presenting change nothing. -/
def Obligations.MicroOperationsKeepTheirFrames : Prop :=
  ∀ s : State,
    (s.mergeRequests.world = { s.world with io := { s.world.io with ic := { s.world.io.ic with
      requested := s.mergeRequests.world.io.ic.requested } } }) ∧
    (s.mergeContract = true → s.mergeRequests.world.io.ic.requested = s.world.io.ic.requested ||| s.irqAcc ∧
      (s.irqAcc = 0 → s.mergeRequests.world = s.world)) ∧
    (s.setRunning.world = { s.world with io := { s.world.io with halt := s.setRunning.world.io.halt } }) ∧
    (s.setRunningContract = true → s.setRunning.running = true) ∧
    (s.askPending.world = s.world ∧ s.askPending.irqAcc = s.irqAcc) ∧
    (s.dmaTryWork.world.cpu = s.world.cpu ∧ s.timerAdvance.world.cpu = s.world.cpu ∧
      s.displayAdvance.world.cpu = s.world.cpu) ∧
    (s.notifyVblank.world = { s.world with io := { s.world.io with dma := s.notifyVblank.world.io.dma } }) ∧
    (s.notifyHblank.world = { s.world with io := { s.world.io with dma := s.notifyHblank.world.io.dma } }) ∧
    (∀ k, (s.setKeyinput k).world = { s.world with io := (s.setKeyinput k).world.io }) ∧
    (s.pollInput.world = s.world ∧ ∀ fb, (s.present fb).world = s.world)

/-- Determinism (spec/43_collaborator_ops.md, "Determinism", an inference the spec marks as its own), with deterministic
collaborators as the premise (D19, `deterministic`): two states that agree in the world, the scheduler's persistent state,
the build and the Backend's keys, whatever their transient registers, past frames and callers, give for every command the
same trace, response, world and scheduler state; and so do two that are at the same point of the same `FRAME`, at its next
loop test.  What they come to is deterministic again. -/
def Obligations.EqualWorldsGiveEqualTraces : Prop :=
  ∀ s t : State, s.deterministic = true → t.deterministic = true →
    (State.SameInputs s t → ∀ i : Instr, ∃ u v, exec i s = .next u ∧ exec i t = .next v ∧
      State.SameBehaviour u v ∧ u.deterministic = true ∧ v.deterministic = true) ∧
    (State.SameBehaviour s t → s.inLoop = true → ∃ u v, step s = .next u ∧ step t = .next v ∧
      State.SameBehaviour u v ∧ u.deterministic = true ∧ v.deterministic = true)

/-! ### A call that does not return -/

/-- U5 and R180 (decision D19): with `FAULT = 0` a command makes its calls in order, and at the first that does not return
it is stuck there: it has no response, and the calls before it are all it did.  A command whose calls all return is not
stuck, and a `STEP`, an `ADD_BREAKPOINT` and a `CHECK_BREAKPOINT` have then responded.  (That the state holds nothing of
what the stuck call did is the model's choice, log 16.) -/
def Obligations.CommandIsStuckAtTheFirstCallThatDoesNotReturn : Prop :=
  (∀ (s : State) (pre post : List (State × Call)) (u : State) (c : Call), s.fault = false → allReturn pre = true →
    u.returns c = false →
    (s.begin.bodyCalls = pre ++ (u, c) :: post → exec .step s = .next (u.hang c) ∧ (u.hang c).response = none) ∧
    (s.begin.inputCalls = pre ++ (u, c) :: post → exec .frame s = .next (u.hang c) ∧ (u.hang c).response = none)) ∧
  (∀ s : State, s.fault = false → s.begin.returns .cpuNextPc = false →
    exec .checkBreakpoint s = .next (s.begin.hang .cpuNextPc)) ∧
  (∀ (i : Instr) (s : State), s.fault = false → s.commandReturns i = true →
    ∃ t, exec i s = .next t ∧ (∀ c, t.phase ≠ .stuck c) ∧
      (i ≠ .frame → t.phase = .idle ∧ t.response.isSome = true))

/-- U5 and R180 (decision D19), for a `FRAME` in progress and for what follows: a loop test is stuck when its read of the
level does not return, and otherwise at the first call of its body that does not return; and a stuck command stays as it
is, however long, whatever the caller would do next, with no response in a state that keeps the invariant. -/
def Obligations.FrameIsStuckAtTheFirstCallThatDoesNotReturn : Prop :=
  (∀ s : State, s.inLoop = true → s.returns .displayState = false → step s = .next (s.hang .displayState)) ∧
  (∀ (s : State) (pre post : List (State × Call)) (u : State) (c : Call), s.inLoop = true → s.loopsOn = true →
    s.returns .displayState = true → s.readLevel.bodyCalls = pre ++ (u, c) :: post → allReturn pre = true →
    u.returns c = false → step s = .next (u.hang c)) ∧
  (∀ s : State, s.inLoop = true → s.loopReturns = true → ∃ t, step s = .next t ∧ ∀ c, t.phase ≠ .stuck c) ∧
  (∀ (s : State) (c : Call) (n : Nat), s.phase = .stuck c →
    Sys2Proof.core.run n s = .next s ∧ (s.Inv → s.response = none))
end

