-- ==== Sys2Proof/Laws/Memory.lean ====
section
/-!
SUPPORT. The laws of the bus memory: a stored byte reads back, every other byte reads as before, and every operation keeps
the canonical form.
-/

namespace Sys2Proof.Machine

@[simp] theorem Memory.read_nil (a : Nat) : Memory.read [] a = none := rfl

theorem Memory.read_cons (c : Host.Cell) (m : Memory) (a : Nat) :
    Memory.read (c :: m) a = if c.1 = a then some c.2 else Memory.read m a := rfl

theorem Memory.wf_cons (c : Host.Cell) (m : Memory) :
    Memory.wf (c :: m) = true ↔ (∀ d ∈ m.head?, c.1 < d.1) ∧ Memory.wf m = true := by
  cases m with
  | nil => simp [Memory.wf]
  | cons d m => simp [Memory.wf]

/-- The first address of a memory after a store is the stored one or the first there was. -/
theorem Memory.head_write (a : Nat) (v : Byte) (m : Memory) (d : Host.Cell) (h : d ∈ (Memory.write a v m).head?) :
    d.1 = a ∨ d ∈ m.head? := by
  cases m with
  | nil => simp [Memory.write] at h; simp [← h]
  | cons c m =>
    obtain ⟨k, b⟩ := c
    unfold Memory.write at h
    split at h
    · simp at h; simp [← h]
    · split at h
      · simp at h; simp [← h]
      · simp at h; simp [← h]

theorem Memory.read_write_same (a : Nat) (v : Byte) (m : Memory) : Memory.read (Memory.write a v m) a = some v := by
  induction m with
  | nil => simp [Memory.write, Memory.read_cons]
  | cons c m ih =>
    obtain ⟨k, b⟩ := c
    unfold Memory.write
    split
    · simp [Memory.read_cons]
    · split
      · simp [Memory.read_cons]
      · rename_i h
        simp [Memory.read_cons, ih, Ne.symm h]

theorem Memory.read_write_other {a b : Nat} (h : b ≠ a) (v : Byte) (m : Memory) :
    Memory.read (Memory.write a v m) b = Memory.read m b := by
  induction m with
  | nil => simp [Memory.write, Memory.read_cons, Ne.symm h]
  | cons c m ih =>
    obtain ⟨k, w⟩ := c
    unfold Memory.write
    split
    · simp [Memory.read_cons, Ne.symm h]
    · split
      · rename_i hk
        simp [Memory.read_cons, ← hk, Ne.symm h]
      · simp [Memory.read_cons, ih]

theorem Memory.write_wf (a : Nat) (v : Byte) (m : Memory) (h : Memory.wf m = true) :
    Memory.wf (Memory.write a v m) = true := by
  induction m with
  | nil => rfl
  | cons c m ih =>
    obtain ⟨k, w⟩ := c
    obtain ⟨hk, hm⟩ := (Memory.wf_cons (k, w) m).1 h
    unfold Memory.write
    split
    · rename_i hlt
      exact (Memory.wf_cons _ _).2 ⟨by simpa using hlt, h⟩
    · split
      · rename_i heq
        exact (Memory.wf_cons _ _).2 ⟨by simpa [heq] using hk, hm⟩
      · rename_i hlt hne
        refine (Memory.wf_cons _ _).2 ⟨fun d hd => ?_, ih hm⟩
        rcases Memory.head_write a v m d hd with hd | hd
        · have : k < a := by omega
          simpa [hd] using this
        · exact hk d hd

theorem Memory.writes_wf (ws : List Host.Cell) (m : Memory) (h : Memory.wf m = true) :
    Memory.wf (Memory.writes ws m) = true := by
  induction ws generalizing m with
  | nil => exact h
  | cons c ws ih => exact ih _ (Memory.write_wf _ _ _ h)

theorem Memory.writes_append (xs ys : List Host.Cell) (m : Memory) :
    Memory.writes (xs ++ ys) m = Memory.writes ys (Memory.writes xs m) := by
  induction xs generalizing m with
  | nil => rfl
  | cons c xs ih => exact ih _

/-- A byte no store names reads as before. -/
theorem Memory.read_writes_other (ws : List Host.Cell) (m : Memory) (a : Nat) (h : ∀ c ∈ ws, c.1 ≠ a) :
    Memory.read (Memory.writes ws m) a = Memory.read m a := by
  induction ws generalizing m with
  | nil => rfl
  | cons c ws ih =>
    rw [Memory.writes, ih _ (fun d hd => h d (by simp [hd]))]
    exact Memory.read_write_other (Ne.symm (h c (by simp))) _ _

end Sys2Proof.Machine
end

