-- ==== Sys2Proof/Laws/State.lean ====
section
/-!
SUPPORT. One lemma per field per update of State, each true by `rfl`, so that no proof unfolds a record update; and the
phases that are one micro-operation under a name of their own.
-/

namespace Sys2Proof.Machine

namespace World

variable (w : World) (c : Cpu) (ws : List Host.Cell) (io : IoAggregate)

@[simp] theorem afterCpu_cpu : (w.afterCpu c ws io).cpu = c := rfl
@[simp] theorem afterCpu_mem : (w.afterCpu c ws io).mem = Memory.writes ws w.mem := rfl
@[simp] theorem afterCpu_io : (w.afterCpu c ws io).io = io := rfl
@[simp] theorem afterDevice_cpu : (w.afterDevice ws io).cpu = w.cpu := rfl
@[simp] theorem afterDevice_mem : (w.afterDevice ws io).mem = Memory.writes ws w.mem := rfl
@[simp] theorem afterDevice_io : (w.afterDevice ws io).io = io := rfl

end World

/-! ### Values at their widths -/

theorem atWidth_lt (w v : Nat) : atWidth w v < 2 ^ w := Nat.mod_lt _ (Nat.two_pow_pos w)

/-- A value that fits its port comes through it unchanged. -/
theorem atWidth_of_lt {w v : Nat} (h : v < 2 ^ w) : atWidth w v = v := Nat.mod_eq_of_lt h

@[simp] theorem atWidth_atWidth (w v : Nat) : atWidth w (atWidth w v) = atWidth w v := atWidth_of_lt (atWidth_lt w v)

section Widths

variable (b : BuildParameters)

@[simp] theorem Cpu.atWidths_cycles (c : Cpu) : (c.atWidths b).cycles = c.cycles := rfl
@[simp] theorem Cpu.atWidths_regs (c : Cpu) : (c.atWidths b).regs = c.regs := rfl
@[simp] theorem IoAggregate.atWidths_halt (io : IoAggregate) : (io.atWidths b).halt = io.halt := rfl
@[simp] theorem IoAggregate.atWidths_keyInput (io : IoAggregate) : (io.atWidths b).keyInput = io.keyInput := rfl
@[simp] theorem IoAggregate.atWidths_dma (io : IoAggregate) : (io.atWidths b).dma = io.dma := rfl
@[simp] theorem IoAggregate.atWidths_timers (io : IoAggregate) : (io.atWidths b).timers = io.timers := rfl
@[simp] theorem IoAggregate.atWidths_display (io : IoAggregate) : (io.atWidths b).display = io.display := rfl

end Widths

/-! What `World.fits` needs of a change of the world. -/

theorem World.fits_iff (b : BuildParameters) (w : World) : w.fits b = true ↔
    w.cpu.pc < 2 ^ b.addrW ∧ w.cpu.nextPc < 2 ^ b.addrW ∧ w.io.ic.requested < 2 ^ b.irqW ∧
      w.io.ic.enabled < 2 ^ b.irqW := by
  simp [World.fits, and_assoc]

theorem World.fits_congr (b : BuildParameters) (v w : World) (hc : v.cpu = w.cpu) (hi : v.io.ic = w.io.ic)
    (h : w.fits b = true) : v.fits b = true := by
  rw [World.fits_iff] at *
  rwa [hc, hi]

/-- A CPU and an aggregate taken at their widths fit. -/
theorem World.fits_of_atWidths (b : BuildParameters) (v : World) (c : Cpu) (io : IoAggregate)
    (hc : v.cpu = c.atWidths b) (hi : v.io.ic = (io.atWidths b).ic) : v.fits b = true := by
  rw [World.fits_iff, hc, hi]
  exact ⟨atWidth_lt _ _, atWidth_lt _ _, atWidth_lt _ _, atWidth_lt _ _⟩

/-- A device changed the aggregate and not the CPU. -/
theorem World.fits_of_device (w : World) (b : BuildParameters) (io : IoAggregate) (v : World) (hc : v.cpu = w.cpu)
    (hi : v.io.ic = (io.atWidths b).ic) (h : w.fits b = true) : v.fits b = true := by
  rw [World.fits_iff] at *
  rw [hc, hi]
  exact ⟨h.1, h.2.1, atWidth_lt _ _, atWidth_lt _ _⟩

namespace State

variable (s : State)

@[simp] theorem readLevel_eq : s.readLevel = s.log (.displayState s.displayLevel) := rfl
@[simp] theorem readHalt_eq : s.readHalt = s.log (.ioHaltRunning s.running) := rfl
@[simp] theorem readFramebuffer_eq : s.readFramebuffer = s.log (.displayFramebuffer s.framebuffer) := rfl
@[simp] theorem readNextPc_eq : s.readNextPc = s.log (.cpuNextPc s.nextPc) := rfl

@[simp] theorem log_irqAcc (op : MicroOp) : (s.log op).irqAcc = s.irqAcc := rfl
@[simp] theorem log_start (op : MicroOp) : (s.log op).start = s.start := rfl
@[simp] theorem log_elapsed (op : MicroOp) : (s.log op).elapsed = s.elapsed := rfl
@[simp] theorem log_took (op : MicroOp) : (s.log op).took = s.took := rfl
@[simp] theorem log_trans (op : MicroOp) : (s.log op).trans = s.trans := rfl
@[simp] theorem log_phase (op : MicroOp) : (s.log op).phase = s.phase := rfl
@[simp] theorem log_bp (op : MicroOp) : (s.log op).bp = s.bp := rfl
@[simp] theorem log_fault (op : MicroOp) : (s.log op).fault = s.fault := rfl
@[simp] theorem log_faultInfo (op : MicroOp) : (s.log op).faultInfo = s.faultInfo := rfl
@[simp] theorem log_world (op : MicroOp) : (s.log op).world = s.world := rfl
@[simp] theorem log_response (op : MicroOp) : (s.log op).response = s.response := rfl
@[simp] theorem log_trace (op : MicroOp) : (s.log op).trace = s.trace ++ [op] := rfl
@[simp] theorem log_presented (op : MicroOp) : (s.log op).presented = s.presented := rfl
@[simp] theorem log_caller (op : MicroOp) : (s.log op).caller = s.caller := rfl
@[simp] theorem log_env (op : MicroOp) : (s.log op).env = s.env.returned := rfl
@[simp] theorem log_build (op : MicroOp) : (s.log op).build = s.build := rfl
@[simp] theorem log_draws (op : MicroOp) : (s.log op).draws = s.draws := rfl

@[simp] theorem begin_irqAcc : s.begin.irqAcc = s.irqAcc := rfl
@[simp] theorem begin_start : s.begin.start = s.start := rfl
@[simp] theorem begin_elapsed : s.begin.elapsed = s.elapsed := rfl
@[simp] theorem begin_took : s.begin.took = s.took := rfl
@[simp] theorem begin_trans : s.begin.trans = s.trans := rfl
@[simp] theorem begin_phase : s.begin.phase = s.phase := rfl
@[simp] theorem begin_bp : s.begin.bp = s.bp := rfl
@[simp] theorem begin_fault : s.begin.fault = s.fault := rfl
@[simp] theorem begin_faultInfo : s.begin.faultInfo = s.faultInfo := rfl
@[simp] theorem begin_world : s.begin.world = s.world := rfl
@[simp] theorem begin_response : s.begin.response = none := rfl
@[simp] theorem begin_trace : s.begin.trace = [] := rfl
@[simp] theorem begin_presented : s.begin.presented = s.presented := rfl
@[simp] theorem begin_caller : s.begin.caller = s.caller := rfl
@[simp] theorem begin_env : s.begin.env = s.env := rfl
@[simp] theorem begin_build : s.begin.build = s.build := rfl
@[simp] theorem begin_draws : s.begin.draws = s.draws := rfl

@[simp] theorem respond_irqAcc (st : Status) (d : Addr) : (s.respond st d).irqAcc = s.irqAcc := rfl
@[simp] theorem respond_start (st : Status) (d : Addr) : (s.respond st d).start = s.start := rfl
@[simp] theorem respond_elapsed (st : Status) (d : Addr) : (s.respond st d).elapsed = s.elapsed := rfl
@[simp] theorem respond_took (st : Status) (d : Addr) : (s.respond st d).took = s.took := rfl
@[simp] theorem respond_trans (st : Status) (d : Addr) : (s.respond st d).trans = s.trans := rfl
@[simp] theorem respond_phase (st : Status) (d : Addr) : (s.respond st d).phase = .idle := rfl
@[simp] theorem respond_bp (st : Status) (d : Addr) : (s.respond st d).bp = s.bp := rfl
@[simp] theorem respond_fault (st : Status) (d : Addr) : (s.respond st d).fault = s.fault := rfl
@[simp] theorem respond_faultInfo (st : Status) (d : Addr) : (s.respond st d).faultInfo = s.faultInfo := rfl
@[simp] theorem respond_world (st : Status) (d : Addr) : (s.respond st d).world = s.world := rfl
@[simp] theorem respond_response (st : Status) (d : Addr) : (s.respond st d).response = some { status := st, data := d, info := Config.unspecifiedInfo s.draws } := rfl
@[simp] theorem respond_trace (st : Status) (d : Addr) : (s.respond st d).trace = s.trace := rfl
@[simp] theorem respond_presented (st : Status) (d : Addr) : (s.respond st d).presented = s.presented := rfl
@[simp] theorem respond_caller (st : Status) (d : Addr) : (s.respond st d).caller = s.caller := rfl
@[simp] theorem respond_env (st : Status) (d : Addr) : (s.respond st d).env = s.env := rfl
@[simp] theorem respond_build (st : Status) (d : Addr) : (s.respond st d).build = s.build := rfl
@[simp] theorem respond_draws (st : Status) (d : Addr) : (s.respond st d).draws = s.draws + 1 := rfl

@[simp] theorem refuse_irqAcc : s.refuse.irqAcc = s.irqAcc := rfl
@[simp] theorem refuse_start : s.refuse.start = s.start := rfl
@[simp] theorem refuse_elapsed : s.refuse.elapsed = s.elapsed := rfl
@[simp] theorem refuse_took : s.refuse.took = s.took := rfl
@[simp] theorem refuse_trans : s.refuse.trans = s.trans := rfl
@[simp] theorem refuse_phase : s.refuse.phase = .idle := rfl
@[simp] theorem refuse_bp : s.refuse.bp = s.bp := rfl
@[simp] theorem refuse_fault : s.refuse.fault = s.fault := rfl
@[simp] theorem refuse_faultInfo : s.refuse.faultInfo = s.faultInfo := rfl
@[simp] theorem refuse_world : s.refuse.world = s.world := rfl
@[simp] theorem refuse_response : s.refuse.response = some { status := .refused, data := 0, info := s.faultInfo } := rfl
@[simp] theorem refuse_trace : s.refuse.trace = s.trace := rfl
@[simp] theorem refuse_presented : s.refuse.presented = s.presented := rfl
@[simp] theorem refuse_caller : s.refuse.caller = s.caller := rfl
@[simp] theorem refuse_env : s.refuse.env = s.env := rfl
@[simp] theorem refuse_build : s.refuse.build = s.build := rfl
@[simp] theorem refuse_draws : s.refuse.draws = s.draws := rfl

@[simp] theorem raiseFault_irqAcc (i : FaultInfo) : (s.raiseFault i).irqAcc = s.irqAcc := rfl
@[simp] theorem raiseFault_start (i : FaultInfo) : (s.raiseFault i).start = s.start := rfl
@[simp] theorem raiseFault_elapsed (i : FaultInfo) : (s.raiseFault i).elapsed = s.elapsed := rfl
@[simp] theorem raiseFault_took (i : FaultInfo) : (s.raiseFault i).took = s.took := rfl
@[simp] theorem raiseFault_trans (i : FaultInfo) : (s.raiseFault i).trans = s.trans := rfl
@[simp] theorem raiseFault_phase (i : FaultInfo) : (s.raiseFault i).phase = .idle := rfl
@[simp] theorem raiseFault_bp (i : FaultInfo) : (s.raiseFault i).bp = s.bp := rfl
@[simp] theorem raiseFault_fault (i : FaultInfo) : (s.raiseFault i).fault = true := rfl
@[simp] theorem raiseFault_faultInfo (i : FaultInfo) : (s.raiseFault i).faultInfo = i := rfl
@[simp] theorem raiseFault_world (i : FaultInfo) : (s.raiseFault i).world = s.world := rfl
@[simp] theorem raiseFault_response (i : FaultInfo) : (s.raiseFault i).response = some { status := .fault, data := 0, info := i } := rfl
@[simp] theorem raiseFault_trace (i : FaultInfo) : (s.raiseFault i).trace = s.trace := rfl
@[simp] theorem raiseFault_presented (i : FaultInfo) : (s.raiseFault i).presented = s.presented := rfl
@[simp] theorem raiseFault_caller (i : FaultInfo) : (s.raiseFault i).caller = s.caller := rfl
@[simp] theorem raiseFault_env (i : FaultInfo) : (s.raiseFault i).env = s.env := rfl
@[simp] theorem raiseFault_build (i : FaultInfo) : (s.raiseFault i).build = s.build := rfl
@[simp] theorem raiseFault_draws (i : FaultInfo) : (s.raiseFault i).draws = s.draws := rfl

@[simp] theorem askPending_irqAcc : s.askPending.irqAcc = s.irqAcc := rfl
@[simp] theorem askPending_start : s.askPending.start = s.start := rfl
@[simp] theorem askPending_elapsed : s.askPending.elapsed = s.elapsed := rfl
@[simp] theorem askPending_took : s.askPending.took = s.took := rfl
@[simp] theorem askPending_trans : s.askPending.trans = s.trans := rfl
@[simp] theorem askPending_phase : s.askPending.phase = s.phase := rfl
@[simp] theorem askPending_bp : s.askPending.bp = s.bp := rfl
@[simp] theorem askPending_fault : s.askPending.fault = s.fault := rfl
@[simp] theorem askPending_faultInfo : s.askPending.faultInfo = s.faultInfo := rfl
@[simp] theorem askPending_world : s.askPending.world = s.world := rfl
@[simp] theorem askPending_response : s.askPending.response = s.response := rfl
@[simp] theorem askPending_trace : s.askPending.trace = s.trace ++ [.icPending s.pending] := rfl
@[simp] theorem askPending_presented : s.askPending.presented = s.presented := rfl
@[simp] theorem askPending_caller : s.askPending.caller = s.caller := rfl
@[simp] theorem askPending_env : s.askPending.env = { s.env.returned with icPending := s.env.icPending.tail } := rfl
@[simp] theorem askPending_build : s.askPending.build = s.build := rfl
@[simp] theorem askPending_draws : s.askPending.draws = s.draws := rfl

@[simp] theorem serviceInterrupt_irqAcc : s.serviceInterrupt.irqAcc = s.irqAcc := rfl
@[simp] theorem serviceInterrupt_start : s.serviceInterrupt.start = s.start := rfl
@[simp] theorem serviceInterrupt_elapsed : s.serviceInterrupt.elapsed = s.elapsed := rfl
@[simp] theorem serviceInterrupt_took : s.serviceInterrupt.took = s.took := rfl
@[simp] theorem serviceInterrupt_trans : s.serviceInterrupt.trans = s.trans := rfl
@[simp] theorem serviceInterrupt_phase : s.serviceInterrupt.phase = s.phase := rfl
@[simp] theorem serviceInterrupt_bp : s.serviceInterrupt.bp = s.bp := rfl
@[simp] theorem serviceInterrupt_fault : s.serviceInterrupt.fault = s.fault := rfl
@[simp] theorem serviceInterrupt_faultInfo : s.serviceInterrupt.faultInfo = s.faultInfo := rfl
@[simp] theorem serviceInterrupt_world : s.serviceInterrupt.world = s.world.afterCpu s.cpuServiceAnswer.cpu s.cpuServiceAnswer.writes s.cpuServiceAnswer.io := rfl
@[simp] theorem serviceInterrupt_response : s.serviceInterrupt.response = s.response := rfl
@[simp] theorem serviceInterrupt_trace : s.serviceInterrupt.trace = s.trace ++ [.cpuServiceInterrupt] := rfl
@[simp] theorem serviceInterrupt_presented : s.serviceInterrupt.presented = s.presented := rfl
@[simp] theorem serviceInterrupt_caller : s.serviceInterrupt.caller = s.caller := rfl
@[simp] theorem serviceInterrupt_env : s.serviceInterrupt.env = { s.env.returned with cpuServiceInterrupt := s.env.cpuServiceInterrupt.tail } := rfl
@[simp] theorem serviceInterrupt_build : s.serviceInterrupt.build = s.build := rfl
@[simp] theorem serviceInterrupt_draws : s.serviceInterrupt.draws = s.draws := rfl

@[simp] theorem cpuStep_irqAcc : s.cpuStep.irqAcc = s.irqAcc := rfl
@[simp] theorem cpuStep_start : s.cpuStep.start = s.start := rfl
@[simp] theorem cpuStep_elapsed : s.cpuStep.elapsed = s.elapsed := rfl
@[simp] theorem cpuStep_took : s.cpuStep.took = s.took := rfl
@[simp] theorem cpuStep_trans : s.cpuStep.trans = s.trans := rfl
@[simp] theorem cpuStep_phase : s.cpuStep.phase = s.phase := rfl
@[simp] theorem cpuStep_bp : s.cpuStep.bp = s.bp := rfl
@[simp] theorem cpuStep_fault : s.cpuStep.fault = s.fault := rfl
@[simp] theorem cpuStep_faultInfo : s.cpuStep.faultInfo = s.faultInfo := rfl
@[simp] theorem cpuStep_world : s.cpuStep.world = s.world.afterCpu s.cpuStepAnswer.cpu s.cpuStepAnswer.writes s.cpuStepAnswer.io := rfl
@[simp] theorem cpuStep_response : s.cpuStep.response = s.response := rfl
@[simp] theorem cpuStep_trace : s.cpuStep.trace = s.trace ++ [.cpuStep s.cpuStepAnswer.result] := rfl
@[simp] theorem cpuStep_presented : s.cpuStep.presented = s.presented := rfl
@[simp] theorem cpuStep_caller : s.cpuStep.caller = s.caller := rfl
@[simp] theorem cpuStep_env : s.cpuStep.env = { s.env.returned with cpuStep := s.env.cpuStep.tail } := rfl
@[simp] theorem cpuStep_build : s.cpuStep.build = s.build := rfl
@[simp] theorem cpuStep_draws : s.cpuStep.draws = s.draws := rfl

@[simp] theorem dmaTryWork_irqAcc : s.dmaTryWork.irqAcc = s.dmaAnswer.irqAcc := rfl
@[simp] theorem dmaTryWork_start : s.dmaTryWork.start = s.start := rfl
@[simp] theorem dmaTryWork_elapsed : s.dmaTryWork.elapsed = s.elapsed := rfl
@[simp] theorem dmaTryWork_took : s.dmaTryWork.took = s.dmaAnswer.took := rfl
@[simp] theorem dmaTryWork_trans : s.dmaTryWork.trans = s.trans := rfl
@[simp] theorem dmaTryWork_phase : s.dmaTryWork.phase = s.phase := rfl
@[simp] theorem dmaTryWork_bp : s.dmaTryWork.bp = s.bp := rfl
@[simp] theorem dmaTryWork_fault : s.dmaTryWork.fault = s.fault := rfl
@[simp] theorem dmaTryWork_faultInfo : s.dmaTryWork.faultInfo = s.faultInfo := rfl
@[simp] theorem dmaTryWork_world : s.dmaTryWork.world = s.world.afterDevice s.dmaAnswer.writes s.dmaAnswer.io := rfl
@[simp] theorem dmaTryWork_response : s.dmaTryWork.response = s.response := rfl
@[simp] theorem dmaTryWork_trace : s.dmaTryWork.trace = s.trace ++ [.dmaTryWork s.irqAcc s.dmaAnswer.irqAcc s.dmaAnswer.took] := rfl
@[simp] theorem dmaTryWork_presented : s.dmaTryWork.presented = s.presented := rfl
@[simp] theorem dmaTryWork_caller : s.dmaTryWork.caller = s.caller := rfl
@[simp] theorem dmaTryWork_env : s.dmaTryWork.env = { s.env.returned with dmaTryWork := s.env.dmaTryWork.tail } := rfl
@[simp] theorem dmaTryWork_build : s.dmaTryWork.build = s.build := rfl
@[simp] theorem dmaTryWork_draws : s.dmaTryWork.draws = s.draws := rfl

@[simp] theorem notifyVblank_irqAcc : s.notifyVblank.irqAcc = s.irqAcc := rfl
@[simp] theorem notifyVblank_start : s.notifyVblank.start = s.start := rfl
@[simp] theorem notifyVblank_elapsed : s.notifyVblank.elapsed = s.elapsed := rfl
@[simp] theorem notifyVblank_took : s.notifyVblank.took = s.took := rfl
@[simp] theorem notifyVblank_trans : s.notifyVblank.trans = s.trans := rfl
@[simp] theorem notifyVblank_phase : s.notifyVblank.phase = s.phase := rfl
@[simp] theorem notifyVblank_bp : s.notifyVblank.bp = s.bp := rfl
@[simp] theorem notifyVblank_fault : s.notifyVblank.fault = s.fault := rfl
@[simp] theorem notifyVblank_faultInfo : s.notifyVblank.faultInfo = s.faultInfo := rfl
@[simp] theorem notifyVblank_world : s.notifyVblank.world = { s.world with io := { s.world.io with dma := s.vblankNotified } } := rfl
@[simp] theorem notifyVblank_response : s.notifyVblank.response = s.response := rfl
@[simp] theorem notifyVblank_trace : s.notifyVblank.trace = s.trace ++ [.dmaNotifyVblank] := rfl
@[simp] theorem notifyVblank_presented : s.notifyVblank.presented = s.presented := rfl
@[simp] theorem notifyVblank_caller : s.notifyVblank.caller = s.caller := rfl
@[simp] theorem notifyVblank_env : s.notifyVblank.env = { s.env.returned with dmaNotifyVblank := s.env.dmaNotifyVblank.tail } := rfl
@[simp] theorem notifyVblank_build : s.notifyVblank.build = s.build := rfl
@[simp] theorem notifyVblank_draws : s.notifyVblank.draws = s.draws := rfl

@[simp] theorem notifyHblank_irqAcc : s.notifyHblank.irqAcc = s.irqAcc := rfl
@[simp] theorem notifyHblank_start : s.notifyHblank.start = s.start := rfl
@[simp] theorem notifyHblank_elapsed : s.notifyHblank.elapsed = s.elapsed := rfl
@[simp] theorem notifyHblank_took : s.notifyHblank.took = s.took := rfl
@[simp] theorem notifyHblank_trans : s.notifyHblank.trans = s.trans := rfl
@[simp] theorem notifyHblank_phase : s.notifyHblank.phase = s.phase := rfl
@[simp] theorem notifyHblank_bp : s.notifyHblank.bp = s.bp := rfl
@[simp] theorem notifyHblank_fault : s.notifyHblank.fault = s.fault := rfl
@[simp] theorem notifyHblank_faultInfo : s.notifyHblank.faultInfo = s.faultInfo := rfl
@[simp] theorem notifyHblank_world : s.notifyHblank.world = { s.world with io := { s.world.io with dma := s.hblankNotified } } := rfl
@[simp] theorem notifyHblank_response : s.notifyHblank.response = s.response := rfl
@[simp] theorem notifyHblank_trace : s.notifyHblank.trace = s.trace ++ [.dmaNotifyHblank] := rfl
@[simp] theorem notifyHblank_presented : s.notifyHblank.presented = s.presented := rfl
@[simp] theorem notifyHblank_caller : s.notifyHblank.caller = s.caller := rfl
@[simp] theorem notifyHblank_env : s.notifyHblank.env = { s.env.returned with dmaNotifyHblank := s.env.dmaNotifyHblank.tail } := rfl
@[simp] theorem notifyHblank_build : s.notifyHblank.build = s.build := rfl
@[simp] theorem notifyHblank_draws : s.notifyHblank.draws = s.draws := rfl

@[simp] theorem timerAdvance_irqAcc : s.timerAdvance.irqAcc = s.timerAnswer.irqAcc := rfl
@[simp] theorem timerAdvance_start : s.timerAdvance.start = s.start := rfl
@[simp] theorem timerAdvance_elapsed : s.timerAdvance.elapsed = s.elapsed := rfl
@[simp] theorem timerAdvance_took : s.timerAdvance.took = s.took := rfl
@[simp] theorem timerAdvance_trans : s.timerAdvance.trans = s.trans := rfl
@[simp] theorem timerAdvance_phase : s.timerAdvance.phase = s.phase := rfl
@[simp] theorem timerAdvance_bp : s.timerAdvance.bp = s.bp := rfl
@[simp] theorem timerAdvance_fault : s.timerAdvance.fault = s.fault := rfl
@[simp] theorem timerAdvance_faultInfo : s.timerAdvance.faultInfo = s.faultInfo := rfl
@[simp] theorem timerAdvance_world : s.timerAdvance.world = s.world.afterDevice s.timerAnswer.writes s.timerAnswer.io := rfl
@[simp] theorem timerAdvance_response : s.timerAdvance.response = s.response := rfl
@[simp] theorem timerAdvance_trace : s.timerAdvance.trace = s.trace ++ [.timerAdvance s.elapsed s.irqAcc s.timerAnswer.irqAcc] := rfl
@[simp] theorem timerAdvance_presented : s.timerAdvance.presented = s.presented := rfl
@[simp] theorem timerAdvance_caller : s.timerAdvance.caller = s.caller := rfl
@[simp] theorem timerAdvance_env : s.timerAdvance.env = { s.env.returned with timerAdvance := s.env.timerAdvance.tail } := rfl
@[simp] theorem timerAdvance_build : s.timerAdvance.build = s.build := rfl
@[simp] theorem timerAdvance_draws : s.timerAdvance.draws = s.draws := rfl

@[simp] theorem displayAdvance_irqAcc : s.displayAdvance.irqAcc = s.displayAnswer.irqAcc := rfl
@[simp] theorem displayAdvance_start : s.displayAdvance.start = s.start := rfl
@[simp] theorem displayAdvance_elapsed : s.displayAdvance.elapsed = s.elapsed := rfl
@[simp] theorem displayAdvance_took : s.displayAdvance.took = s.took := rfl
@[simp] theorem displayAdvance_trans : s.displayAdvance.trans = s.displayAnswer.trans := rfl
@[simp] theorem displayAdvance_phase : s.displayAdvance.phase = s.phase := rfl
@[simp] theorem displayAdvance_bp : s.displayAdvance.bp = s.bp := rfl
@[simp] theorem displayAdvance_fault : s.displayAdvance.fault = s.fault := rfl
@[simp] theorem displayAdvance_faultInfo : s.displayAdvance.faultInfo = s.faultInfo := rfl
@[simp] theorem displayAdvance_world : s.displayAdvance.world = s.world.afterDevice s.displayAnswer.writes s.displayAnswer.io := rfl
@[simp] theorem displayAdvance_response : s.displayAdvance.response = s.response := rfl
@[simp] theorem displayAdvance_trace : s.displayAdvance.trace = s.trace ++ [.displayAdvance s.elapsed s.irqAcc s.displayAnswer.irqAcc s.displayAnswer.trans] := rfl
@[simp] theorem displayAdvance_presented : s.displayAdvance.presented = s.presented := rfl
@[simp] theorem displayAdvance_caller : s.displayAdvance.caller = s.caller := rfl
@[simp] theorem displayAdvance_env : s.displayAdvance.env = { s.env.returned with displayAdvance := s.env.displayAdvance.tail } := rfl
@[simp] theorem displayAdvance_build : s.displayAdvance.build = s.build := rfl
@[simp] theorem displayAdvance_draws : s.displayAdvance.draws = s.draws := rfl

@[simp] theorem present_irqAcc (fb : FrameBuffer) : (s.present fb).irqAcc = s.irqAcc := rfl
@[simp] theorem present_start (fb : FrameBuffer) : (s.present fb).start = s.start := rfl
@[simp] theorem present_elapsed (fb : FrameBuffer) : (s.present fb).elapsed = s.elapsed := rfl
@[simp] theorem present_took (fb : FrameBuffer) : (s.present fb).took = s.took := rfl
@[simp] theorem present_trans (fb : FrameBuffer) : (s.present fb).trans = s.trans := rfl
@[simp] theorem present_phase (fb : FrameBuffer) : (s.present fb).phase = s.phase := rfl
@[simp] theorem present_bp (fb : FrameBuffer) : (s.present fb).bp = s.bp := rfl
@[simp] theorem present_fault (fb : FrameBuffer) : (s.present fb).fault = s.fault := rfl
@[simp] theorem present_faultInfo (fb : FrameBuffer) : (s.present fb).faultInfo = s.faultInfo := rfl
@[simp] theorem present_world (fb : FrameBuffer) : (s.present fb).world = s.world := rfl
@[simp] theorem present_response (fb : FrameBuffer) : (s.present fb).response = s.response := rfl
@[simp] theorem present_trace (fb : FrameBuffer) : (s.present fb).trace = s.trace ++ [.backendPresent fb] := rfl
@[simp] theorem present_presented (fb : FrameBuffer) : (s.present fb).presented = s.presented ++ [fb] := rfl
@[simp] theorem present_caller (fb : FrameBuffer) : (s.present fb).caller = s.caller := rfl
@[simp] theorem present_env (fb : FrameBuffer) : (s.present fb).env = s.env.returned := rfl
@[simp] theorem present_build (fb : FrameBuffer) : (s.present fb).build = s.build := rfl
@[simp] theorem present_draws (fb : FrameBuffer) : (s.present fb).draws = s.draws := rfl

@[simp] theorem mergeRequests_irqAcc : s.mergeRequests.irqAcc = s.irqAcc := rfl
@[simp] theorem mergeRequests_start : s.mergeRequests.start = s.start := rfl
@[simp] theorem mergeRequests_elapsed : s.mergeRequests.elapsed = s.elapsed := rfl
@[simp] theorem mergeRequests_took : s.mergeRequests.took = s.took := rfl
@[simp] theorem mergeRequests_trans : s.mergeRequests.trans = s.trans := rfl
@[simp] theorem mergeRequests_phase : s.mergeRequests.phase = s.phase := rfl
@[simp] theorem mergeRequests_bp : s.mergeRequests.bp = s.bp := rfl
@[simp] theorem mergeRequests_fault : s.mergeRequests.fault = s.fault := rfl
@[simp] theorem mergeRequests_faultInfo : s.mergeRequests.faultInfo = s.faultInfo := rfl
@[simp] theorem mergeRequests_world : s.mergeRequests.world = { s.world with io := { s.world.io with ic := { s.world.io.ic with requested := s.mergeAnswer } } } := rfl
@[simp] theorem mergeRequests_response : s.mergeRequests.response = s.response := rfl
@[simp] theorem mergeRequests_trace : s.mergeRequests.trace = s.trace ++ [.icMergeRequests s.irqAcc] := rfl
@[simp] theorem mergeRequests_presented : s.mergeRequests.presented = s.presented := rfl
@[simp] theorem mergeRequests_caller : s.mergeRequests.caller = s.caller := rfl
@[simp] theorem mergeRequests_env : s.mergeRequests.env = { s.env.returned with icMergeRequests := s.env.icMergeRequests.tail } := rfl
@[simp] theorem mergeRequests_build : s.mergeRequests.build = s.build := rfl
@[simp] theorem mergeRequests_draws : s.mergeRequests.draws = s.draws := rfl

@[simp] theorem setRunning_irqAcc : s.setRunning.irqAcc = s.irqAcc := rfl
@[simp] theorem setRunning_start : s.setRunning.start = s.start := rfl
@[simp] theorem setRunning_elapsed : s.setRunning.elapsed = s.elapsed := rfl
@[simp] theorem setRunning_took : s.setRunning.took = s.took := rfl
@[simp] theorem setRunning_trans : s.setRunning.trans = s.trans := rfl
@[simp] theorem setRunning_phase : s.setRunning.phase = s.phase := rfl
@[simp] theorem setRunning_bp : s.setRunning.bp = s.bp := rfl
@[simp] theorem setRunning_fault : s.setRunning.fault = s.fault := rfl
@[simp] theorem setRunning_faultInfo : s.setRunning.faultInfo = s.faultInfo := rfl
@[simp] theorem setRunning_world : s.setRunning.world = { s.world with io := { s.world.io with halt := s.haltAnswer } } := rfl
@[simp] theorem setRunning_response : s.setRunning.response = s.response := rfl
@[simp] theorem setRunning_trace : s.setRunning.trace = s.trace ++ [.ioSetRunning] := rfl
@[simp] theorem setRunning_presented : s.setRunning.presented = s.presented := rfl
@[simp] theorem setRunning_caller : s.setRunning.caller = s.caller := rfl
@[simp] theorem setRunning_env : s.setRunning.env = { s.env.returned with ioSetRunning := s.env.ioSetRunning.tail } := rfl
@[simp] theorem setRunning_build : s.setRunning.build = s.build := rfl
@[simp] theorem setRunning_draws : s.setRunning.draws = s.draws := rfl

@[simp] theorem pollInput_irqAcc : s.pollInput.irqAcc = s.irqAcc := rfl
@[simp] theorem pollInput_start : s.pollInput.start = s.start := rfl
@[simp] theorem pollInput_elapsed : s.pollInput.elapsed = s.elapsed := rfl
@[simp] theorem pollInput_took : s.pollInput.took = s.took := rfl
@[simp] theorem pollInput_trans : s.pollInput.trans = s.trans := rfl
@[simp] theorem pollInput_phase : s.pollInput.phase = s.phase := rfl
@[simp] theorem pollInput_bp : s.pollInput.bp = s.bp := rfl
@[simp] theorem pollInput_fault : s.pollInput.fault = s.fault := rfl
@[simp] theorem pollInput_faultInfo : s.pollInput.faultInfo = s.faultInfo := rfl
@[simp] theorem pollInput_world : s.pollInput.world = s.world := rfl
@[simp] theorem pollInput_response : s.pollInput.response = s.response := rfl
@[simp] theorem pollInput_trace : s.pollInput.trace = s.trace ++ [.backendPollInput s.polledKey] := rfl
@[simp] theorem pollInput_presented : s.pollInput.presented = s.presented := rfl
@[simp] theorem pollInput_caller : s.pollInput.caller = s.caller := rfl
@[simp] theorem pollInput_env : s.pollInput.env = { s.env.returned with polledKeys := s.env.polledKeys.tail } := rfl
@[simp] theorem pollInput_build : s.pollInput.build = s.build := rfl
@[simp] theorem pollInput_draws : s.pollInput.draws = s.draws + 1 := rfl

@[simp] theorem setKeyinput_irqAcc (k : KeyState) : (s.setKeyinput k).irqAcc = s.irqAcc := rfl
@[simp] theorem setKeyinput_start (k : KeyState) : (s.setKeyinput k).start = s.start := rfl
@[simp] theorem setKeyinput_elapsed (k : KeyState) : (s.setKeyinput k).elapsed = s.elapsed := rfl
@[simp] theorem setKeyinput_took (k : KeyState) : (s.setKeyinput k).took = s.took := rfl
@[simp] theorem setKeyinput_trans (k : KeyState) : (s.setKeyinput k).trans = s.trans := rfl
@[simp] theorem setKeyinput_phase (k : KeyState) : (s.setKeyinput k).phase = s.phase := rfl
@[simp] theorem setKeyinput_bp (k : KeyState) : (s.setKeyinput k).bp = s.bp := rfl
@[simp] theorem setKeyinput_fault (k : KeyState) : (s.setKeyinput k).fault = s.fault := rfl
@[simp] theorem setKeyinput_faultInfo (k : KeyState) : (s.setKeyinput k).faultInfo = s.faultInfo := rfl
@[simp] theorem setKeyinput_world (k : KeyState) : (s.setKeyinput k).world = { s.world with io := s.keyInputAnswer k } := rfl
@[simp] theorem setKeyinput_response (k : KeyState) : (s.setKeyinput k).response = s.response := rfl
@[simp] theorem setKeyinput_trace (k : KeyState) : (s.setKeyinput k).trace = s.trace ++ [.ioSetKeyinput k] := rfl
@[simp] theorem setKeyinput_presented (k : KeyState) : (s.setKeyinput k).presented = s.presented := rfl
@[simp] theorem setKeyinput_caller (k : KeyState) : (s.setKeyinput k).caller = s.caller := rfl
@[simp] theorem setKeyinput_env (k : KeyState) : (s.setKeyinput k).env = { s.env.returned with keyInputEffect := s.env.keyInputEffect.tail } := rfl
@[simp] theorem setKeyinput_build (k : KeyState) : (s.setKeyinput k).build = s.build := rfl
@[simp] theorem setKeyinput_draws (k : KeyState) : (s.setKeyinput k).draws = s.draws := rfl

@[simp] theorem hang_irqAcc (c : Call) : (s.hang c).irqAcc = s.irqAcc := rfl
@[simp] theorem hang_start (c : Call) : (s.hang c).start = s.start := rfl
@[simp] theorem hang_elapsed (c : Call) : (s.hang c).elapsed = s.elapsed := rfl
@[simp] theorem hang_took (c : Call) : (s.hang c).took = s.took := rfl
@[simp] theorem hang_trans (c : Call) : (s.hang c).trans = s.trans := rfl
@[simp] theorem hang_phase (c : Call) : (s.hang c).phase = .stuck c := rfl
@[simp] theorem hang_bp (c : Call) : (s.hang c).bp = s.bp := rfl
@[simp] theorem hang_fault (c : Call) : (s.hang c).fault = s.fault := rfl
@[simp] theorem hang_faultInfo (c : Call) : (s.hang c).faultInfo = s.faultInfo := rfl
@[simp] theorem hang_world (c : Call) : (s.hang c).world = s.world := rfl
@[simp] theorem hang_response (c : Call) : (s.hang c).response = s.response := rfl
@[simp] theorem hang_trace (c : Call) : (s.hang c).trace = s.trace := rfl
@[simp] theorem hang_presented (c : Call) : (s.hang c).presented = s.presented := rfl
@[simp] theorem hang_caller (c : Call) : (s.hang c).caller = s.caller := rfl
@[simp] theorem hang_env (c : Call) : (s.hang c).env = s.env := rfl
@[simp] theorem hang_build (c : Call) : (s.hang c).build = s.build := rfl
@[simp] theorem hang_draws (c : Call) : (s.hang c).draws = s.draws := rfl

@[simp] theorem phaseS1_irqAcc : s.phaseS1.irqAcc = 0 := rfl
@[simp] theorem phaseS1_start : s.phaseS1.start = s.start := rfl
@[simp] theorem phaseS1_elapsed : s.phaseS1.elapsed = s.elapsed := rfl
@[simp] theorem phaseS1_took : s.phaseS1.took = s.took := rfl
@[simp] theorem phaseS1_trans : s.phaseS1.trans = s.trans := rfl
@[simp] theorem phaseS1_phase : s.phaseS1.phase = s.phase := rfl
@[simp] theorem phaseS1_bp : s.phaseS1.bp = s.bp := rfl
@[simp] theorem phaseS1_fault : s.phaseS1.fault = s.fault := rfl
@[simp] theorem phaseS1_faultInfo : s.phaseS1.faultInfo = s.faultInfo := rfl
@[simp] theorem phaseS1_world : s.phaseS1.world = s.world := rfl
@[simp] theorem phaseS1_response : s.phaseS1.response = s.response := rfl
@[simp] theorem phaseS1_trace : s.phaseS1.trace = s.trace := rfl
@[simp] theorem phaseS1_presented : s.phaseS1.presented = s.presented := rfl
@[simp] theorem phaseS1_caller : s.phaseS1.caller = s.caller := rfl
@[simp] theorem phaseS1_env : s.phaseS1.env = s.env := rfl
@[simp] theorem phaseS1_build : s.phaseS1.build = s.build := rfl
@[simp] theorem phaseS1_draws : s.phaseS1.draws = s.draws := rfl

@[simp] theorem readStart_irqAcc : s.readStart.irqAcc = s.irqAcc := rfl
@[simp] theorem readStart_start : s.readStart.start = s.cycles := rfl
@[simp] theorem readStart_elapsed : s.readStart.elapsed = s.elapsed := rfl
@[simp] theorem readStart_took : s.readStart.took = s.took := rfl
@[simp] theorem readStart_trans : s.readStart.trans = s.trans := rfl
@[simp] theorem readStart_phase : s.readStart.phase = s.phase := rfl
@[simp] theorem readStart_bp : s.readStart.bp = s.bp := rfl
@[simp] theorem readStart_fault : s.readStart.fault = s.fault := rfl
@[simp] theorem readStart_faultInfo : s.readStart.faultInfo = s.faultInfo := rfl
@[simp] theorem readStart_world : s.readStart.world = s.world := rfl
@[simp] theorem readStart_response : s.readStart.response = s.response := rfl
@[simp] theorem readStart_trace : s.readStart.trace = s.trace ++ [.cpuCycles s.cycles] := rfl
@[simp] theorem readStart_presented : s.readStart.presented = s.presented := rfl
@[simp] theorem readStart_caller : s.readStart.caller = s.caller := rfl
@[simp] theorem readStart_env : s.readStart.env = s.env.returned := rfl
@[simp] theorem readStart_build : s.readStart.build = s.build := rfl
@[simp] theorem readStart_draws : s.readStart.draws = s.draws := rfl

@[simp] theorem dmaTook_irqAcc : s.dmaTook.irqAcc = s.irqAcc := rfl
@[simp] theorem dmaTook_start : s.dmaTook.start = s.start := rfl
@[simp] theorem dmaTook_elapsed : s.dmaTook.elapsed = 0 := rfl
@[simp] theorem dmaTook_took : s.dmaTook.took = s.took := rfl
@[simp] theorem dmaTook_trans : s.dmaTook.trans = s.trans := rfl
@[simp] theorem dmaTook_phase : s.dmaTook.phase = s.phase := rfl
@[simp] theorem dmaTook_bp : s.dmaTook.bp = s.bp := rfl
@[simp] theorem dmaTook_fault : s.dmaTook.fault = s.fault := rfl
@[simp] theorem dmaTook_faultInfo : s.dmaTook.faultInfo = s.faultInfo := rfl
@[simp] theorem dmaTook_world : s.dmaTook.world = s.world := rfl
@[simp] theorem dmaTook_response : s.dmaTook.response = s.response := rfl
@[simp] theorem dmaTook_trace : s.dmaTook.trace = s.trace := rfl
@[simp] theorem dmaTook_presented : s.dmaTook.presented = s.presented := rfl
@[simp] theorem dmaTook_caller : s.dmaTook.caller = s.caller := rfl
@[simp] theorem dmaTook_env : s.dmaTook.env = s.env := rfl
@[simp] theorem dmaTook_build : s.dmaTook.build = s.build := rfl
@[simp] theorem dmaTook_draws : s.dmaTook.draws = s.draws := rfl

@[simp] theorem idleTick_irqAcc : s.idleTick.irqAcc = s.irqAcc := rfl
@[simp] theorem idleTick_start : s.idleTick.start = s.start := rfl
@[simp] theorem idleTick_elapsed : s.idleTick.elapsed = 1 := rfl
@[simp] theorem idleTick_took : s.idleTick.took = s.took := rfl
@[simp] theorem idleTick_trans : s.idleTick.trans = s.trans := rfl
@[simp] theorem idleTick_phase : s.idleTick.phase = s.phase := rfl
@[simp] theorem idleTick_bp : s.idleTick.bp = s.bp := rfl
@[simp] theorem idleTick_fault : s.idleTick.fault = s.fault := rfl
@[simp] theorem idleTick_faultInfo : s.idleTick.faultInfo = s.faultInfo := rfl
@[simp] theorem idleTick_world : s.idleTick.world = s.world := rfl
@[simp] theorem idleTick_response : s.idleTick.response = s.response := rfl
@[simp] theorem idleTick_trace : s.idleTick.trace = s.trace := rfl
@[simp] theorem idleTick_presented : s.idleTick.presented = s.presented := rfl
@[simp] theorem idleTick_caller : s.idleTick.caller = s.caller := rfl
@[simp] theorem idleTick_env : s.idleTick.env = s.env := rfl
@[simp] theorem idleTick_build : s.idleTick.build = s.build := rfl
@[simp] theorem idleTick_draws : s.idleTick.draws = s.draws := rfl

@[simp] theorem countElapsed_irqAcc : s.countElapsed.irqAcc = s.irqAcc := rfl
@[simp] theorem countElapsed_start : s.countElapsed.start = s.start := rfl
@[simp] theorem countElapsed_elapsed : s.countElapsed.elapsed = elapsedSince s.start s.cycles := rfl
@[simp] theorem countElapsed_took : s.countElapsed.took = s.took := rfl
@[simp] theorem countElapsed_trans : s.countElapsed.trans = s.trans := rfl
@[simp] theorem countElapsed_phase : s.countElapsed.phase = s.phase := rfl
@[simp] theorem countElapsed_bp : s.countElapsed.bp = s.bp := rfl
@[simp] theorem countElapsed_fault : s.countElapsed.fault = s.fault := rfl
@[simp] theorem countElapsed_faultInfo : s.countElapsed.faultInfo = s.faultInfo := rfl
@[simp] theorem countElapsed_world : s.countElapsed.world = s.world := rfl
@[simp] theorem countElapsed_response : s.countElapsed.response = s.response := rfl
@[simp] theorem countElapsed_trace : s.countElapsed.trace = s.trace ++ [.cpuCycles s.cycles] := rfl
@[simp] theorem countElapsed_presented : s.countElapsed.presented = s.presented := rfl
@[simp] theorem countElapsed_caller : s.countElapsed.caller = s.caller := rfl
@[simp] theorem countElapsed_env : s.countElapsed.env = s.env.returned := rfl
@[simp] theorem countElapsed_build : s.countElapsed.build = s.build := rfl
@[simp] theorem countElapsed_draws : s.countElapsed.draws = s.draws := rfl

@[simp] theorem callerSetsWorld_irqAcc (c : Cpu) (ws : List Host.Cell) (io : IoAggregate) : (s.callerSetsWorld c ws io).irqAcc = s.irqAcc := rfl
@[simp] theorem callerSetsWorld_start (c : Cpu) (ws : List Host.Cell) (io : IoAggregate) : (s.callerSetsWorld c ws io).start = s.start := rfl
@[simp] theorem callerSetsWorld_elapsed (c : Cpu) (ws : List Host.Cell) (io : IoAggregate) : (s.callerSetsWorld c ws io).elapsed = s.elapsed := rfl
@[simp] theorem callerSetsWorld_took (c : Cpu) (ws : List Host.Cell) (io : IoAggregate) : (s.callerSetsWorld c ws io).took = s.took := rfl
@[simp] theorem callerSetsWorld_trans (c : Cpu) (ws : List Host.Cell) (io : IoAggregate) : (s.callerSetsWorld c ws io).trans = s.trans := rfl
@[simp] theorem callerSetsWorld_phase (c : Cpu) (ws : List Host.Cell) (io : IoAggregate) : (s.callerSetsWorld c ws io).phase = s.phase := rfl
@[simp] theorem callerSetsWorld_bp (c : Cpu) (ws : List Host.Cell) (io : IoAggregate) : (s.callerSetsWorld c ws io).bp = s.bp := rfl
@[simp] theorem callerSetsWorld_fault (c : Cpu) (ws : List Host.Cell) (io : IoAggregate) : (s.callerSetsWorld c ws io).fault = s.fault := rfl
@[simp] theorem callerSetsWorld_faultInfo (c : Cpu) (ws : List Host.Cell) (io : IoAggregate) : (s.callerSetsWorld c ws io).faultInfo = s.faultInfo := rfl
@[simp] theorem callerSetsWorld_world (c : Cpu) (ws : List Host.Cell) (io : IoAggregate) : (s.callerSetsWorld c ws io).world = s.world.afterCpu (c.atWidths s.build) ws (io.atWidths s.build) := rfl
@[simp] theorem callerSetsWorld_response (c : Cpu) (ws : List Host.Cell) (io : IoAggregate) : (s.callerSetsWorld c ws io).response = s.response := rfl
@[simp] theorem callerSetsWorld_trace (c : Cpu) (ws : List Host.Cell) (io : IoAggregate) : (s.callerSetsWorld c ws io).trace = s.trace := rfl
@[simp] theorem callerSetsWorld_presented (c : Cpu) (ws : List Host.Cell) (io : IoAggregate) : (s.callerSetsWorld c ws io).presented = s.presented := rfl
@[simp] theorem callerSetsWorld_caller (c : Cpu) (ws : List Host.Cell) (io : IoAggregate) : (s.callerSetsWorld c ws io).caller = s.caller := rfl
@[simp] theorem callerSetsWorld_env (c : Cpu) (ws : List Host.Cell) (io : IoAggregate) : (s.callerSetsWorld c ws io).env = s.env := rfl
@[simp] theorem callerSetsWorld_build (c : Cpu) (ws : List Host.Cell) (io : IoAggregate) : (s.callerSetsWorld c ws io).build = s.build := rfl
@[simp] theorem callerSetsWorld_draws (c : Cpu) (ws : List Host.Cell) (io : IoAggregate) : (s.callerSetsWorld c ws io).draws = s.draws := rfl

@[simp] theorem presentCommand_irqAcc (w : Nat) : (s.presentCommand w).irqAcc = s.irqAcc := rfl
@[simp] theorem presentCommand_start (w : Nat) : (s.presentCommand w).start = s.start := rfl
@[simp] theorem presentCommand_elapsed (w : Nat) : (s.presentCommand w).elapsed = s.elapsed := rfl
@[simp] theorem presentCommand_took (w : Nat) : (s.presentCommand w).took = s.took := rfl
@[simp] theorem presentCommand_trans (w : Nat) : (s.presentCommand w).trans = s.trans := rfl
@[simp] theorem presentCommand_phase (w : Nat) : (s.presentCommand w).phase = .idle := rfl
@[simp] theorem presentCommand_bp (w : Nat) : (s.presentCommand w).bp = s.bp := rfl
@[simp] theorem presentCommand_fault (w : Nat) : (s.presentCommand w).fault = s.fault := rfl
@[simp] theorem presentCommand_faultInfo (w : Nat) : (s.presentCommand w).faultInfo = s.faultInfo := rfl
@[simp] theorem presentCommand_world (w : Nat) : (s.presentCommand w).world = s.world := rfl
@[simp] theorem presentCommand_response (w : Nat) : (s.presentCommand w).response = s.response := rfl
@[simp] theorem presentCommand_trace (w : Nat) : (s.presentCommand w).trace = s.trace := rfl
@[simp] theorem presentCommand_presented (w : Nat) : (s.presentCommand w).presented = s.presented := rfl
@[simp] theorem presentCommand_caller (w : Nat) : (s.presentCommand w).caller = .command w :: s.caller := rfl
@[simp] theorem presentCommand_env (w : Nat) : (s.presentCommand w).env = s.env := rfl
@[simp] theorem presentCommand_build (w : Nat) : (s.presentCommand w).build = s.build := rfl
@[simp] theorem presentCommand_draws (w : Nat) : (s.presentCommand w).draws = s.draws := rfl


/-! Calls that have returned, and exits. -/

@[simp] theorem returned_returns (e : Environment) : e.returned.returns = e.returns.tail := rfl
@[simp] theorem returned_cpuServiceInterrupt (e : Environment) : e.returned.cpuServiceInterrupt = e.cpuServiceInterrupt := rfl
@[simp] theorem returned_cpuStep (e : Environment) : e.returned.cpuStep = e.cpuStep := rfl
@[simp] theorem returned_dmaTryWork (e : Environment) : e.returned.dmaTryWork = e.dmaTryWork := rfl
@[simp] theorem returned_dmaNotifyVblank (e : Environment) : e.returned.dmaNotifyVblank = e.dmaNotifyVblank := rfl
@[simp] theorem returned_dmaNotifyHblank (e : Environment) : e.returned.dmaNotifyHblank = e.dmaNotifyHblank := rfl
@[simp] theorem returned_timerAdvance (e : Environment) : e.returned.timerAdvance = e.timerAdvance := rfl
@[simp] theorem returned_displayAdvance (e : Environment) : e.returned.displayAdvance = e.displayAdvance := rfl
@[simp] theorem returned_icPending (e : Environment) : e.returned.icPending = e.icPending := rfl
@[simp] theorem returned_icMergeRequests (e : Environment) : e.returned.icMergeRequests = e.icMergeRequests := rfl
@[simp] theorem returned_ioSetRunning (e : Environment) : e.returned.ioSetRunning = e.ioSetRunning := rfl
@[simp] theorem returned_keyInputEffect (e : Environment) : e.returned.keyInputEffect = e.keyInputEffect := rfl
@[simp] theorem returned_polledKeys (e : Environment) : e.returned.polledKeys = e.polledKeys := rfl

@[simp] theorem andThen_completed (f : State → Exit) : (Exit.completed s).andThen f = f s := rfl
@[simp] theorem andThen_raised (f : State → Exit) : (Exit.raised s).andThen f = .raised s := rfl
@[simp] theorem andThen_stuck (f : State → Exit) : (Exit.stuck s).andThen f = .stuck s := rfl
@[simp] theorem state_completed : (Exit.completed s).state = s := rfl
@[simp] theorem state_raised : (Exit.raised s).state = s := rfl
@[simp] theorem state_stuck : (Exit.stuck s).state = s := rfl

/-! What S7 leaves alone after the advance, whatever the notification. -/

@[simp] theorem edgeDone_irqAcc : s.edgeDone.irqAcc = s.irqAcc := by
  unfold State.edgeDone; split <;> simp
@[simp] theorem edgeDone_start : s.edgeDone.start = s.start := by
  unfold State.edgeDone; split <;> simp
@[simp] theorem edgeDone_elapsed : s.edgeDone.elapsed = s.elapsed := by
  unfold State.edgeDone; split <;> simp
@[simp] theorem edgeDone_took : s.edgeDone.took = s.took := by
  unfold State.edgeDone; split <;> simp
@[simp] theorem edgeDone_trans : s.edgeDone.trans = s.trans := by
  unfold State.edgeDone; split <;> simp
@[simp] theorem edgeDone_phase : s.edgeDone.phase = s.phase := by
  unfold State.edgeDone; split <;> simp
@[simp] theorem edgeDone_bp : s.edgeDone.bp = s.bp := by
  unfold State.edgeDone; split <;> simp
@[simp] theorem edgeDone_fault : s.edgeDone.fault = s.fault := by
  unfold State.edgeDone; split <;> simp
@[simp] theorem edgeDone_faultInfo : s.edgeDone.faultInfo = s.faultInfo := by
  unfold State.edgeDone; split <;> simp
@[simp] theorem edgeDone_response : s.edgeDone.response = s.response := by
  unfold State.edgeDone; split <;> simp
@[simp] theorem edgeDone_caller : s.edgeDone.caller = s.caller := by
  unfold State.edgeDone; split <;> simp
@[simp] theorem edgeDone_build : s.edgeDone.build = s.build := by
  unfold State.edgeDone; split <;> simp
@[simp] theorem edgeDone_draws : s.edgeDone.draws = s.draws := by
  unfold State.edgeDone; split <;> simp

end State

end Sys2Proof.Machine
end

