-- ==== Sys2Proof/Laws/Body.lean ====
section
/-!
SUPPORT. What a step body can do, said once: the four ways the arbiter of S1 to S5 ends (`arbitrate_cases`), what the tail
S6 to S8 does to each register, and what every body leaves alone.  Later proofs cite these and do not unfold the phases.
-/

namespace Sys2Proof.Machine

namespace State

variable (s : State)

/-! ### S1 to S4 -/

@[simp] theorem running_setRunning : s.setRunning.running = s.haltAnswer.isRunning := rfl

/-- With the contract of `IO.set_running`, `IO.halt_running` answers 1 afterwards (R195). -/
theorem running_of_setRunningContract (h : s.setRunningContract = true) : s.setRunning.running = true := by
  have h : s.haltAnswer = .running := by simpa [State.setRunningContract] using h
  simp [h, HaltState.isRunning]

theorem atHaltTest_pending (h : s.atQuery.pending = true) : s.atHaltTest = s.atWake.setRunning := by
  simp [State.atHaltTest, h]

theorem atHaltTest_quiet (h : s.atQuery.pending = false) : s.atHaltTest = s.atQuery.askPending := by
  simp [State.atHaltTest, h, State.atService]

theorem atQuery_took : s.atQuery.took = s.dmaTakes := rfl

/-- A serviced interrupt wakes the CPU, by the contract of `IO.set_running`, so an instruction is executed in the same
step. -/
theorem executes_of_services (h : s.services = true) (hw : s.bodyWakes = true) : s.executes = true := by
  have hw : s.atWake.setRunningContract = true := by simpa [State.bodyWakes, h] using hw
  simp only [State.services, Bool.and_eq_true, Bool.not_eq_true'] at h
  rw [State.executes, h.1, atHaltTest_pending s h.2, running_of_setRunningContract _ hw]
  rfl

theorem services_dmaTakes (h : s.services = true) : s.dmaTakes = false := by
  simp [State.services] at h; exact h.1

theorem executes_dmaTakes (h : s.executes = true) : s.dmaTakes = false := by
  simp [State.executes] at h; exact h.1

theorem pending_eq_services (h : s.dmaTakes = false) : s.atQuery.pending = s.services := by simp [State.services, h]

theorem running_eq_executes (h : s.dmaTakes = false) : s.atHaltTest.running = s.executes := by simp [State.executes, h]

theorem idles_spec (h : s.idles = true) : s.dmaTakes = false ∧ s.atHaltTest.running = false := by
  simpa only [State.idles, Bool.and_eq_true, Bool.not_eq_true'] using h

/-- An idle step has serviced no interrupt, by the contract of `IO.set_running`. -/
theorem services_of_idles (h : s.idles = true) (hw : s.bodyWakes = true) : s.services = false := by
  by_contra hs
  have hx := executes_of_services s (by simpa using hs) hw
  simp [State.executes, (idles_spec s h).2] at hx

/-- The four ways of S1 to S5 (R226): the DMA Engine takes the cycle, nobody runs, an instruction succeeds, an
instruction faults. -/
theorem arbiter_cases :
    (s.dmaTakes = true ∧ s.services = false ∧ s.executes = false ∧ s.idles = false ∧ s.completes = true ∧
      s.atTimer = s.atQuery.dmaTook) ∨
    (s.dmaTakes = false ∧ s.executes = false ∧ s.idles = true ∧ s.completes = true ∧ s.atTimer = s.idled) ∨
    (s.dmaTakes = false ∧ s.executes = true ∧ s.idles = false ∧ s.atCpuStep.cpuStepAnswer.result = .ok ∧
      s.completes = true ∧ s.atTimer = s.executed) ∨
    (∃ info, s.dmaTakes = false ∧ s.executes = true ∧ s.idles = false ∧
      s.atCpuStep.cpuStepAnswer.result = .fault info ∧ s.completes = false) := by
  cases hd : s.dmaTakes with
  | true => exact .inl ⟨rfl, by simp [State.services, hd], by simp [State.executes, hd], by simp [State.idles, hd],
      by simp [State.completes, State.executes, hd], by simp [State.atTimer, hd]⟩
  | false =>
    cases hr : s.atHaltTest.running with
    | false =>
      have hx : s.executes = false := by simp [State.executes, hr]
      exact .inr (.inl ⟨rfl, hx, by simp [State.idles, hd, hr], by simp [State.completes, hx],
        by simp [State.atTimer, hd, hx]⟩)
    | true =>
      have hx : s.executes = true := by simp [State.executes, hd, hr]
      have hi : s.idles = false := by simp [State.idles, hr]
      cases hres : s.atCpuStep.cpuStepAnswer.result with
      | ok => exact .inr (.inr (.inl ⟨rfl, hx, hi, rfl, by simp [State.completes, hres],
          by simp [State.atTimer, hd, hx]⟩))
      | fault info => exact .inr (.inr (.inr ⟨info, rfl, hx, hi, rfl, by simp [State.completes, hx, hres]⟩))

theorem faultsWith_of_not_completes (h : s.completes = false) : ∃ info, s.faultsWith info := by
  rcases arbiter_cases s with ⟨-, -, -, -, k, -⟩ | ⟨-, -, -, k, -⟩ | ⟨-, -, -, -, k, -⟩ | ⟨i, -, hx, -, hr, -⟩
  · simp [h] at k
  · simp [h] at k
  · simp [h] at k
  · exact ⟨i, hx, hr⟩

theorem completes_of_faultsWith {info : FaultInfo} (h : s.faultsWith info) : s.completes = false := by
  simp [State.completes, h.1, h.2]

end State

/-! ### Calls in order

A sequence of calls is stuck at the first that does not return, and otherwise comes to its end. -/

/-- The exit of calls made in the given states, `e` being what follows when all have returned. -/
def Exit.ofCalls : List (State × Call) → Exit → Exit
  | [], e => e
  | (u, c) :: rest, e => if u.returns c then Exit.ofCalls rest e else .stuck (u.hang c)

theorem Exit.ofCalls_append (xs ys : List (State × Call)) (e : Exit) :
    Exit.ofCalls (xs ++ ys) e = Exit.ofCalls xs (Exit.ofCalls ys e) := by
  induction xs with
  | nil => rfl
  | cons p xs ih => simp [Exit.ofCalls, ih]

theorem Exit.ofCalls_andThen (cs : List (State × Call)) (e : Exit) (f : State → Exit) :
    (Exit.ofCalls cs e).andThen f = Exit.ofCalls cs (e.andThen f) := by
  induction cs with
  | nil => rfl
  | cons p cs ih =>
    simp only [Exit.ofCalls]
    split
    · exact ih
    · rfl

theorem Exit.ofCalls_of_returns {cs : List (State × Call)} (e : Exit) (h : allReturn cs = true) :
    Exit.ofCalls cs e = e := by
  induction cs with
  | nil => rfl
  | cons p cs ih =>
    simp only [allReturn, List.all_cons, Bool.and_eq_true] at h
    simp only [Exit.ofCalls, h.1, if_true]
    exact ih h.2

theorem Exit.ofCalls_of_not_returns {cs : List (State × Call)} (e : Exit) (h : allReturn cs = false) :
    ∃ pre u c post, cs = pre ++ (u, c) :: post ∧ allReturn pre = true ∧ u.returns c = false ∧
      Exit.ofCalls cs e = .stuck (u.hang c) := by
  induction cs with
  | nil => cases h
  | cons p cs ih =>
    obtain ⟨u, c⟩ := p
    cases hr : u.returns c with
    | false => exact ⟨[], u, c, cs, rfl, rfl, hr, by simp [Exit.ofCalls, hr]⟩
    | true =>
      have h : allReturn cs = false := by simpa [allReturn, hr] using h
      obtain ⟨pre, v, d, post, e1, e2, e3, e4⟩ := ih h
      refine ⟨(u, c) :: pre, v, d, post, by rw [e1]; rfl, ?_, e3, by simp only [Exit.ofCalls, hr, if_true]; exact e4⟩
      rw [allReturn, List.all_cons, hr]
      exact e2

namespace State

variable (s : State)

theorem call_eq (c : Call) (run : State → State) :
    s.call c run = Exit.ofCalls [(s, c)] (.completed (run s)) := rfl

theorem phaseS4_eq : s.phaseS4 =
    Exit.ofCalls ([(s, .icPending)] ++
      (if s.pending then [(s.askPending, .cpuServiceInterrupt), (s.askPending.serviceInterrupt, .ioSetRunning)] else []))
      (.completed (if s.pending then s.askPending.serviceInterrupt.setRunning else s.askPending)) := by
  rw [State.phaseS4, call_eq, Exit.ofCalls_andThen, Exit.ofCalls_append]
  congr 1
  cases s.pending with
  | false => rfl
  | true => simp only [State.enterAndWake, call_eq, Exit.ofCalls_andThen, andThen_completed, if_true]; rfl

theorem executeOne_eq : s.executeOne =
    Exit.ofCalls ([(s, .cpuStep)] ++ (if s.cpuStepAnswer.result == .ok then [(s.cpuStep, .cpuCycles)] else []))
      (match s.cpuStepAnswer.result with
        | .ok => .completed s.cpuStep.countElapsed
        | .fault info => .raised (s.cpuStep.raiseFault info)) := by
  rw [State.executeOne, call_eq, Exit.ofCalls_andThen, Exit.ofCalls_append]
  congr 1
  cases h : s.cpuStepAnswer.result <;> rfl

theorem displayEdge_eq : s.displayEdge = Exit.ofCalls s.edgeCalls (.completed s.edgeDone) := by
  unfold State.displayEdge State.edgeCalls State.edgeDone
  cases s.trans with
  | none => rfl
  | some d =>
    cases d with
    | vblank =>
      simp only [State.enterVblank, call_eq, Exit.ofCalls_andThen, andThen_completed]
      rfl
    | _ => rfl

theorem stepTail_eq : s.stepTail =
    Exit.ofCalls ([(s, .timerAdvance s.elapsed s.irqAcc),
        (s.timerAdvance, .displayAdvance s.timerAdvance.elapsed s.timerAdvance.irqAcc)]
      ++ s.timerAdvance.displayAdvance.edgeCalls
      ++ [(s.timerAdvance.displayAdvance.edgeDone,
        .icMergeRequests s.timerAdvance.displayAdvance.edgeDone.irqAcc)])
      (.completed s.tailDone) := by
  simp only [State.stepTail, State.phaseS6, State.phaseS7, State.phaseS8, call_eq, Exit.ofCalls_andThen,
    andThen_completed, displayEdge_eq, Exit.ofCalls_append]
  rfl

/-- What S5 comes to when `CPU.step` has returned. -/
def instructionEnd : Exit :=
  match s.atCpuStep.cpuStepAnswer.result with
  | .ok => .completed s.executed
  | .fault info => .raised (s.atCpuStep.cpuStep.raiseFault info)

/-- What S1 to S5 come to when every call returns. -/
def arbiterEnd : Exit := if s.executes then s.instructionEnd else .completed s.atTimer

/-- What a body comes to when every call returns. -/
def bodyEnd : Exit := s.arbiterEnd.andThen fun t => .completed t.tailDone

theorem phaseS5_eq (h : s.dmaTakes = false) : s.atHaltTest.phaseS5 =
    Exit.ofCalls ([(s.atHaltTest, .ioHaltRunning)] ++
      (if s.executes then
        [(s.atCpuStep, .cpuStep)] ++ (if s.completes then [(s.atCpuStep.cpuStep, .cpuCycles)] else [])
      else [])) s.arbiterEnd := by
  rw [State.phaseS5, call_eq, Exit.ofCalls_andThen, Exit.ofCalls_append, running_eq_executes s h]
  congr 1
  cases hx : s.executes with
  | false => simp [State.arbiterEnd, hx, State.atTimer, h, State.idled, running_eq_executes s h, Exit.ofCalls]
  | true =>
    have hc : s.completes = (s.atCpuStep.cpuStepAnswer.result == .ok) := by simp [State.completes, hx]
    have hl : s.atHaltTest.readHalt = s.atCpuStep := by simp [State.atCpuStep, running_eq_executes s h, hx]
    simp only [andThen_completed, if_true, hl, executeOne_eq, hc, State.arbiterEnd, State.instructionEnd, hx,
      State.executed]

theorem cpuPart_eq (h : s.dmaTakes = false) : s.atQuery.cpuPart = Exit.ofCalls s.cpuCalls s.arbiterEnd := by
  have e : (if s.atQuery.pending then s.atQuery.askPending.serviceInterrupt.setRunning else s.atQuery.askPending) =
      s.atHaltTest := rfl
  rw [State.cpuPart, phaseS4_eq, Exit.ofCalls_andThen, e, andThen_completed, phaseS5_eq s h, pending_eq_services s h,
    ← Exit.ofCalls_append, ← List.append_assoc]
  rfl

theorem arbitrate_eq : s.arbitrate =
    Exit.ofCalls ([(s.phaseS1, .cpuCycles), (s.atDma, .dmaTryWork 0)] ++ (if s.dmaTakes then [] else s.cpuCalls))
      s.arbiterEnd := by
  have e : s.arbitrate = Exit.ofCalls [(s.phaseS1, .cpuCycles), (s.atDma, .dmaTryWork 0)]
      (if s.dmaTakes then .completed s.atQuery.dmaTook else s.atQuery.cpuPart) := by
    simp only [State.arbitrate, State.phaseS2, State.phaseS3, call_eq, Exit.ofCalls_andThen, andThen_completed]
    rfl
  rw [e, Exit.ofCalls_append]
  congr 1
  cases h : s.dmaTakes with
  | true => simp [State.arbiterEnd, State.executes, State.atTimer, h, Exit.ofCalls]
  | false => simp only [Bool.false_eq_true, if_false]; exact cpuPart_eq s h

/-- A step body makes its calls in order, is stuck at the first that does not return, and otherwise comes to its end. -/
theorem stepBody_eq : s.stepBody = Exit.ofCalls s.bodyCalls s.bodyEnd := by
  rw [State.stepBody, arbitrate_eq, Exit.ofCalls_andThen, State.bodyCalls, Exit.ofCalls_append _ (if s.completes then _ else _)]
  congr 1
  rcases arbiter_cases s with ⟨-, -, hx, -, hc, -⟩ | ⟨-, hx, -, hc, -⟩ | ⟨-, hx, -, hr, hc, ht⟩ | ⟨i, -, hx, -, hr, hc⟩
  · simp only [State.bodyEnd, State.arbiterEnd, hx, hc, andThen_completed, if_true, Bool.false_eq_true, if_false]
    exact stepTail_eq s.atTimer
  · simp only [State.bodyEnd, State.arbiterEnd, hx, hc, andThen_completed, if_true, Bool.false_eq_true, if_false]
    exact stepTail_eq s.atTimer
  · simp only [State.bodyEnd, State.arbiterEnd, State.instructionEnd, hx, hr, hc, andThen_completed, if_true, ← ht]
    exact stepTail_eq s.atTimer
  · simp only [State.bodyEnd, State.arbiterEnd, State.instructionEnd, hx, hr, hc, andThen_raised, if_true,
      Bool.false_eq_true, if_false]
    rfl

/-- The three ways a step body ends: it completes, it raises the fault of its `CPU.step`, or it is stuck at a call that
does not return, the ones before it having returned. -/
theorem stepBody_cases :
    (s.bodyReturns = true ∧ s.completes = true ∧ s.stepBody = .completed s.bodyDone) ∨
    (∃ info, s.bodyReturns = true ∧ s.faultsWith info ∧
      s.stepBody = .raised (s.atCpuStep.cpuStep.raiseFault info)) ∨
    (∃ pre u c post, s.bodyReturns = false ∧ s.bodyCalls = pre ++ (u, c) :: post ∧ allReturn pre = true ∧
      u.returns c = false ∧ s.stepBody = .stuck (u.hang c)) := by
  cases hb : s.bodyReturns with
  | false =>
    obtain ⟨pre, u, c, post, e1, e2, e3, e4⟩ := Exit.ofCalls_of_not_returns s.bodyEnd hb
    exact .inr (.inr ⟨pre, u, c, post, rfl, e1, e2, e3, (stepBody_eq s).trans e4⟩)
  | true =>
    have e : s.stepBody = s.bodyEnd := (stepBody_eq s).trans (Exit.ofCalls_of_returns _ hb)
    rcases arbiter_cases s with ⟨-, -, hx, -, hc, -⟩ | ⟨-, hx, -, hc, -⟩ | ⟨-, hx, -, hr, hc, ht⟩ | ⟨i, -, hx, -, hr, -⟩
    · exact .inl ⟨rfl, hc, by rw [e]; simp [State.bodyEnd, State.arbiterEnd, hx, State.bodyDone]⟩
    · exact .inl ⟨rfl, hc, by rw [e]; simp [State.bodyEnd, State.arbiterEnd, hx, State.bodyDone]⟩
    · exact .inl ⟨rfl, hc, by
        rw [e]; simp [State.bodyEnd, State.arbiterEnd, State.instructionEnd, hx, hr, State.bodyDone, ht]⟩
    · exact .inr (.inl ⟨i, rfl, ⟨hx, hr⟩, by
        rw [e]; simp [State.bodyEnd, State.arbiterEnd, State.instructionEnd, hx, hr]⟩)

/-- Where a body's calls are made. -/
theorem bodyCalls_cases {u : State} {c : Call} (h : (u, c) ∈ s.bodyCalls) :
    u = s.phaseS1 ∨ u = s.atDma ∨ (s.dmaTakes = false ∧ u = s.atQuery) ∨ (s.services = true ∧ u = s.atService) ∨
    (s.services = true ∧ u = s.atWake) ∨ (s.dmaTakes = false ∧ u = s.atHaltTest) ∨
    (s.executes = true ∧ u = s.atCpuStep) ∨ (s.executes = true ∧ u = s.atCpuStep.cpuStep) ∨
    (s.completes = true ∧ (u = s.atTimer ∨ u = s.atDisplay ∨ u = s.atDisplay.displayAdvance ∨
      u = s.atDisplay.displayAdvance.readFramebuffer ∨
      u = s.atDisplay.displayAdvance.readFramebuffer.present s.atDisplay.displayAdvance.framebuffer ∨
      u = s.atMerge)) := by
  have he : ∀ v : State, (u, c) ∈ v.edgeCalls →
      u = v ∨ u = v.readFramebuffer ∨ u = v.readFramebuffer.present v.framebuffer := by
    intro v hv
    unfold State.edgeCalls at hv
    split at hv
    · simp only [List.mem_cons, Prod.mk.injEq, List.not_mem_nil, or_false] at hv
      exact hv.imp And.left (Or.imp And.left And.left)
    · simp only [List.mem_cons, Prod.mk.injEq, List.not_mem_nil, or_false] at hv
      exact .inl hv.1
    all_goals cases hv
  rw [State.bodyCalls, List.mem_append, List.mem_append] at h
  rcases h with (h | h) | h
  · simp only [List.mem_cons, Prod.mk.injEq, List.not_mem_nil, or_false] at h
    rcases h with h | h
    · exact .inl h.1
    · exact .inr (.inl h.1)
  · cases hd : s.dmaTakes with
    | true => simp [hd] at h
    | false =>
      simp only [hd, Bool.false_eq_true, if_false, State.cpuCalls, List.mem_append, List.mem_cons, Prod.mk.injEq,
        List.not_mem_nil, or_false] at h
      refine .inr (.inr ?_)
      rcases h with ((h | h) | h) | h
      · exact .inl ⟨rfl, h.1⟩
      · cases hs : s.services with
        | false => simp [hs] at h
        | true =>
          simp only [hs, if_true, List.mem_cons, Prod.mk.injEq, List.not_mem_nil, or_false] at h
          rcases h with h | h
          · exact .inr (.inl ⟨rfl, h.1⟩)
          · exact .inr (.inr (.inl ⟨rfl, h.1⟩))
      · exact .inr (.inr (.inr (.inl ⟨rfl, h.1⟩)))
      · cases hx : s.executes with
        | false => simp [hx] at h
        | true =>
          simp only [hx, if_true, List.mem_append, List.mem_cons, Prod.mk.injEq, List.not_mem_nil, or_false] at h
          refine .inr (.inr (.inr (.inr ?_)))
          rcases h with h | h
          · exact .inl ⟨rfl, h.1⟩
          · split at h
            · simp only [List.mem_cons, Prod.mk.injEq, List.not_mem_nil, or_false] at h
              exact .inr (.inl ⟨rfl, h.1⟩)
            · cases h
  · cases hc : s.completes with
    | false => simp [hc] at h
    | true =>
      simp only [hc, if_true, List.mem_append, List.mem_cons, Prod.mk.injEq, List.not_mem_nil, or_false] at h
      refine .inr (.inr (.inr (.inr (.inr (.inr (.inr (.inr ⟨rfl, ?_⟩)))))))
      rcases h with ((h | h) | h) | h
      · exact .inl h.1
      · exact .inr (.inl h.1)
      · exact .inr (.inr ((he _ h).imp id (Or.imp id .inl)))
      · exact .inr (.inr (.inr (.inr (.inr h.1))))

/-! ### What every body keeps -/

/-- `P` holds after each micro-operation of a body, and after each assignment of the scheduler's own in it, if it holds
before. -/
structure KeptByBody (P : State → Prop) : Prop where
  phaseS1          : ∀ {t : State}, P t → P t.phaseS1
  readStart        : ∀ {t : State}, P t → P t.readStart
  dmaTryWork       : ∀ {t : State}, P t → P t.dmaTryWork
  dmaTook          : ∀ {t : State}, P t → P t.dmaTook
  askPending       : ∀ {t : State}, P t → P t.askPending
  serviceInterrupt : ∀ {t : State}, P t → P t.serviceInterrupt
  setRunning       : ∀ {t : State}, P t → P t.setRunning
  readHalt         : ∀ {t : State} {b : Bool}, P t → P (t.log (.ioHaltRunning b))
  cpuStep          : ∀ {t : State}, P t → P t.cpuStep
  countElapsed     : ∀ {t : State}, P t → P t.countElapsed
  idleTick         : ∀ {t : State}, P t → P t.idleTick
  timerAdvance     : ∀ {t : State}, P t → P t.timerAdvance
  displayAdvance   : ∀ {t : State}, P t → P t.displayAdvance
  readFramebuffer  : ∀ {t : State}, P t → P t.readFramebuffer
  present          : ∀ {t : State} {fb : FrameBuffer}, P t → P (t.present fb)
  notifyVblank     : ∀ {t : State}, P t → P t.notifyVblank
  notifyHblank     : ∀ {t : State}, P t → P t.notifyHblank
  mergeRequests    : ∀ {t : State}, P t → P t.mergeRequests

section

variable {s} {P : State → Prop} (k : KeptByBody P) (h : P s)

include k h

theorem KeptByBody.atQuery : P s.atQuery := k.dmaTryWork (k.readStart (k.phaseS1 h))

theorem KeptByBody.atHaltTest : P s.atHaltTest := by
  have hq := k.askPending (KeptByBody.atQuery k h)
  unfold State.atHaltTest
  split
  · exact k.setRunning (k.serviceInterrupt hq)
  · exact hq

theorem KeptByBody.cpuStepDone : P s.atCpuStep.cpuStep := k.cpuStep (k.readHalt (KeptByBody.atHaltTest k h))

theorem KeptByBody.atTimer : P s.atTimer := by
  unfold State.atTimer
  split
  · exact k.dmaTook (KeptByBody.atQuery k h)
  · split
    · exact k.countElapsed (KeptByBody.cpuStepDone k h)
    · exact k.idleTick (k.readHalt (KeptByBody.atHaltTest k h))

theorem KeptByBody.edgeDone : P s.edgeDone := by
  unfold State.edgeDone
  split
  · exact k.notifyVblank (k.present (k.readFramebuffer h))
  · exact k.notifyHblank h
  · exact h
  · exact h
  · exact h

theorem KeptByBody.tailDone : P s.tailDone :=
  k.mergeRequests (KeptByBody.edgeDone k (k.displayAdvance (k.timerAdvance h)))

theorem KeptByBody.bodyDone : P s.bodyDone := KeptByBody.tailDone k (KeptByBody.atTimer k h)

/-- It holds in each state in which a body makes a call. -/
theorem KeptByBody.calls {u : State} {c : Call} (hu : (u, c) ∈ s.bodyCalls) : P u := by
  have hd := k.readStart (k.phaseS1 h)
  have hq := KeptByBody.atQuery k h
  have hh := KeptByBody.atHaltTest k h
  have hv := k.displayAdvance (k.timerAdvance (KeptByBody.atTimer k h))
  rcases bodyCalls_cases s hu with rfl | rfl | ⟨-, rfl⟩ | ⟨-, rfl⟩ | ⟨-, rfl⟩ | ⟨-, rfl⟩ | ⟨-, rfl⟩ | ⟨-, rfl⟩ | ⟨-, hu⟩
  · exact k.phaseS1 h
  · exact hd
  · exact hq
  · exact k.askPending hq
  · exact k.serviceInterrupt (k.askPending hq)
  · exact hh
  · exact k.readHalt hh
  · exact k.cpuStep (k.readHalt hh)
  · rcases hu with rfl | rfl | rfl | rfl | rfl | rfl
    · exact KeptByBody.atTimer k h
    · exact k.timerAdvance (KeptByBody.atTimer k h)
    · exact hv
    · exact k.readFramebuffer hv
    · exact k.present (k.readFramebuffer hv)
    · exact KeptByBody.edgeDone k hv

/-- What a body keeps holds in the state it completes in, in the one its fault is raised in, and in the one it is stuck
in. -/
theorem KeptByBody.stepBody :
    (∃ t, s.stepBody = .completed t ∧ P t) ∨ (∃ t info, s.stepBody = .raised (t.raiseFault info) ∧ P t) ∨
      (∃ t c, s.stepBody = .stuck (t.hang c) ∧ P t) := by
  rcases stepBody_cases s with ⟨-, -, e⟩ | ⟨i, -, -, e⟩ | ⟨pre, u, c, post, -, hc, -, -, e⟩
  · exact .inl ⟨_, e, KeptByBody.bodyDone k h⟩
  · exact .inr (.inl ⟨_, i, e, KeptByBody.cpuStepDone k h⟩)
  · exact .inr (.inr ⟨u, c, e, KeptByBody.calls k h (hc ▸ List.mem_append_right _ List.mem_cons_self)⟩)

end

/-! ### What a body leaves alone -/

/-- What no step body touches: the breakpoint set, the caller, the build, the input queues, the free-value counter, and
(but for a raised fault) the latch, the sequencer position and the response. -/
structure SameSetting (t u : State) : Prop where
  bp        : u.bp = t.bp
  build     : u.build = t.build
  caller    : u.caller = t.caller
  keys      : u.env.polledKeys = t.env.polledKeys
  keyEffect : u.env.keyInputEffect = t.env.keyInputEffect
  draws     : u.draws = t.draws
  phase     : u.phase = t.phase
  response  : u.response = t.response
  fault     : u.fault = t.fault
  faultInfo : u.faultInfo = t.faultInfo

theorem SameSetting.refl : SameSetting s s := ⟨rfl, rfl, rfl, rfl, rfl, rfl, rfl, rfl, rfl, rfl⟩

theorem SameSetting.trans {t u v : State} (h : SameSetting t u) (k : SameSetting u v) : SameSetting t v :=
  ⟨k.bp.trans h.bp, k.build.trans h.build, k.caller.trans h.caller, k.keys.trans h.keys,
    k.keyEffect.trans h.keyEffect, k.draws.trans h.draws, k.phase.trans h.phase, k.response.trans h.response,
    k.fault.trans h.fault, k.faultInfo.trans h.faultInfo⟩

theorem keptByBody_sameSetting : KeptByBody (SameSetting s) where
  phaseS1 h := h.trans ⟨rfl, rfl, rfl, rfl, rfl, rfl, rfl, rfl, rfl, rfl⟩
  readStart h := h.trans ⟨rfl, rfl, rfl, rfl, rfl, rfl, rfl, rfl, rfl, rfl⟩
  dmaTryWork h := h.trans ⟨rfl, rfl, rfl, rfl, rfl, rfl, rfl, rfl, rfl, rfl⟩
  dmaTook h := h.trans ⟨rfl, rfl, rfl, rfl, rfl, rfl, rfl, rfl, rfl, rfl⟩
  askPending h := h.trans ⟨rfl, rfl, rfl, rfl, rfl, rfl, rfl, rfl, rfl, rfl⟩
  serviceInterrupt h := h.trans ⟨rfl, rfl, rfl, rfl, rfl, rfl, rfl, rfl, rfl, rfl⟩
  setRunning h := h.trans ⟨rfl, rfl, rfl, rfl, rfl, rfl, rfl, rfl, rfl, rfl⟩
  readHalt h := h.trans ⟨rfl, rfl, rfl, rfl, rfl, rfl, rfl, rfl, rfl, rfl⟩
  cpuStep h := h.trans ⟨rfl, rfl, rfl, rfl, rfl, rfl, rfl, rfl, rfl, rfl⟩
  countElapsed h := h.trans ⟨rfl, rfl, rfl, rfl, rfl, rfl, rfl, rfl, rfl, rfl⟩
  idleTick h := h.trans ⟨rfl, rfl, rfl, rfl, rfl, rfl, rfl, rfl, rfl, rfl⟩
  timerAdvance h := h.trans ⟨rfl, rfl, rfl, rfl, rfl, rfl, rfl, rfl, rfl, rfl⟩
  displayAdvance h := h.trans ⟨rfl, rfl, rfl, rfl, rfl, rfl, rfl, rfl, rfl, rfl⟩
  readFramebuffer h := h.trans ⟨rfl, rfl, rfl, rfl, rfl, rfl, rfl, rfl, rfl, rfl⟩
  present h := h.trans ⟨rfl, rfl, rfl, rfl, rfl, rfl, rfl, rfl, rfl, rfl⟩
  notifyVblank h := h.trans ⟨rfl, rfl, rfl, rfl, rfl, rfl, rfl, rfl, rfl, rfl⟩
  notifyHblank h := h.trans ⟨rfl, rfl, rfl, rfl, rfl, rfl, rfl, rfl, rfl, rfl⟩
  mergeRequests h := h.trans ⟨rfl, rfl, rfl, rfl, rfl, rfl, rfl, rfl, rfl, rfl⟩

theorem sameSetting_atHaltTest : SameSetting s s.atHaltTest :=
  (keptByBody_sameSetting s).atHaltTest (.refl s)

theorem sameSetting_cpuStep : SameSetting s s.atCpuStep.cpuStep := (keptByBody_sameSetting s).cpuStepDone (.refl s)

theorem sameSetting_bodyDone : SameSetting s s.bodyDone := (keptByBody_sameSetting s).bodyDone (.refl s)

theorem sameSetting_call {u : State} {c : Call} (h : (u, c) ∈ s.bodyCalls) : SameSetting s u :=
  (keptByBody_sameSetting s).calls (.refl s) h

/-! ### S6 to S8 -/

@[simp] theorem edgeDone_cpu : s.edgeDone.world.cpu = s.world.cpu := by
  unfold State.edgeDone; split <;> simp
@[simp] theorem edgeDone_mem : s.edgeDone.world.mem = s.world.mem := by
  unfold State.edgeDone; split <;> simp
@[simp] theorem edgeDone_ic : s.edgeDone.world.io.ic = s.world.io.ic := by
  unfold State.edgeDone; split <;> simp
@[simp] theorem edgeDone_display : s.edgeDone.world.io.display = s.world.io.display := by
  unfold State.edgeDone; split <;> simp

theorem edgeDone_presented :
    s.edgeDone.presented = s.presented ++ (if s.trans = some .vblank then [s.framebuffer] else []) := by
  unfold State.edgeDone; split <;> simp_all

/-- The micro-operations of S7 after the advance. -/
def edgeOps (trans : Option DisplayState) (fb : FrameBuffer) : List MicroOp :=
  if trans = some .vblank then [.displayFramebuffer fb, .backendPresent fb, .dmaNotifyVblank]
  else if trans = some .hblank then [.dmaNotifyHblank] else []

theorem edgeDone_trace : s.edgeDone.trace = s.trace ++ edgeOps s.trans s.framebuffer := by
  unfold State.edgeDone edgeOps; split <;> simp_all

theorem edgeTrace_edgeOps (trans : Option DisplayState) (fb : FrameBuffer) : EdgeTrace trans (edgeOps trans fb) := by
  rcases trans with _ | (_ | _ | _ | _) <;> constructor

@[simp] theorem tailDone_elapsed : s.tailDone.elapsed = s.elapsed := by simp [State.tailDone]
@[simp] theorem tailDone_took : s.tailDone.took = s.took := by simp [State.tailDone]
@[simp] theorem tailDone_start : s.tailDone.start = s.start := by simp [State.tailDone]
@[simp] theorem tailDone_cpu : s.tailDone.world.cpu = s.world.cpu := by simp [State.tailDone]
theorem tailDone_irqAcc : s.tailDone.irqAcc = s.timerAdvance.displayAnswer.irqAcc := by simp [State.tailDone]
theorem tailDone_trans : s.tailDone.trans = s.timerAdvance.displayAnswer.trans := by simp [State.tailDone]

theorem tailDone_mem : s.tailDone.world.mem =
    Memory.writes (s.timerAnswer.writes ++ s.timerAdvance.displayAnswer.writes) s.world.mem := by
  simp [State.tailDone, Memory.writes_append]

theorem tailDone_display : s.tailDone.world.io.display = s.timerAdvance.displayAnswer.io.display := by
  simp [State.tailDone]

theorem tailDone_framebuffer :
    s.tailDone.framebuffer = s.timerAdvance.displayAnswer.io.display.framebuffer := by
  simp [State.framebuffer, tailDone_display]

theorem tailDone_ic : s.tailDone.world.io.ic = { s.timerAdvance.displayAnswer.io.ic with
    requested := s.timerAdvance.displayAdvance.edgeDone.mergeAnswer } := by
  simp [State.tailDone]

/-- With the contract of `IC.merge_requests` the tail ORs `irq_acc` into the pending mask (R118, R193). -/
theorem tailDone_ic_of_mergeContract (h : s.timerAdvance.displayAdvance.edgeDone.mergeContract = true) :
    s.tailDone.world.io.ic = { s.timerAdvance.displayAnswer.io.ic with
      requested := s.timerAdvance.displayAnswer.io.ic.requested ||| s.tailDone.irqAcc } := by
  have h : s.timerAdvance.displayAdvance.edgeDone.mergeAnswer =
      mergedRequests s.timerAdvance.displayAdvance.edgeDone.world.io.ic.requested s.timerAdvance.displayAdvance.edgeDone.irqAcc := by
    simpa only [State.mergeContract, beq_iff_eq] using h
  simp only [edgeDone_ic, edgeDone_irqAcc, displayAdvance_world,
    displayAdvance_irqAcc, World.afterDevice_io] at h
  rw [tailDone_ic, h, tailDone_irqAcc]
  rfl

theorem tailDone_presented : s.tailDone.presented =
    s.presented ++ (if s.tailDone.trans = some .vblank then [s.tailDone.framebuffer] else []) := by
  rw [tailDone_framebuffer, tailDone_trans]
  exact edgeDone_presented _

/-- The micro-operations of S6 to S8. -/
theorem tailDone_trace : s.tailDone.trace = s.trace ++
    ([.timerAdvance s.elapsed s.irqAcc s.timerAnswer.irqAcc,
      .displayAdvance s.elapsed s.timerAnswer.irqAcc s.tailDone.irqAcc s.tailDone.trans]
      ++ edgeOps s.tailDone.trans s.tailDone.framebuffer ++ [.icMergeRequests s.tailDone.irqAcc]) := by
  simp [State.tailDone, edgeDone_trace, State.framebuffer]

theorem tailTrace_tailDone : ∃ tail, TailTrace s.elapsed s.irqAcc tail ∧ s.tailDone.trace = s.trace ++ tail :=
  ⟨_, ⟨_, _, _, _, edgeTrace_edgeOps _ _, rfl⟩, tailDone_trace s⟩

/-! ### Widths: what a step body leaves fits its widths -/

/-- The world and `irq_acc` fit their widths, the build being `b`. -/
def Fits (b : BuildParameters) (t : State) : Prop :=
  t.build = b ∧ t.world.fits b = true ∧ t.irqAcc < 2 ^ b.irqW

theorem Fits.congr {b : BuildParameters} {t u : State} (h : Fits b t) (hb : u.build = t.build)
    (hc : u.world.cpu = t.world.cpu) (hi : u.world.io.ic = t.world.io.ic) (hm : u.irqAcc = t.irqAcc) : Fits b u :=
  ⟨hb.trans h.1, World.fits_congr b _ _ hc hi h.2.1, hm ▸ h.2.2⟩

theorem keptByBody_fits (b : BuildParameters) : KeptByBody (Fits b) where
  phaseS1 h := ⟨h.1, h.2.1, Nat.two_pow_pos _⟩
  readStart h := h.congr rfl rfl rfl rfl
  dmaTryWork {t} h := by
    obtain ⟨rfl, h2, -⟩ := h
    exact ⟨rfl, World.fits_of_device t.world _ _ _ rfl rfl h2, atWidth_lt _ _⟩
  dmaTook h := h.congr rfl rfl rfl rfl
  askPending h := h.congr rfl rfl rfl rfl
  serviceInterrupt h := by
    obtain ⟨rfl, -, h3⟩ := h
    exact ⟨rfl, World.fits_of_atWidths _ _ _ _ rfl rfl, h3⟩
  setRunning h := h.congr rfl rfl rfl rfl
  readHalt h := h.congr rfl rfl rfl rfl
  cpuStep h := by
    obtain ⟨rfl, -, h3⟩ := h
    exact ⟨rfl, World.fits_of_atWidths _ _ _ _ rfl rfl, h3⟩
  countElapsed h := h.congr rfl rfl rfl rfl
  idleTick h := h.congr rfl rfl rfl rfl
  timerAdvance {t} h := by
    obtain ⟨rfl, h2, -⟩ := h
    exact ⟨rfl, World.fits_of_device t.world _ _ _ rfl rfl h2, atWidth_lt _ _⟩
  displayAdvance {t} h := by
    obtain ⟨rfl, h2, -⟩ := h
    exact ⟨rfl, World.fits_of_device t.world _ _ _ rfl rfl h2, atWidth_lt _ _⟩
  readFramebuffer h := h.congr rfl rfl rfl rfl
  present h := h.congr rfl rfl rfl rfl
  notifyVblank h := h.congr rfl rfl rfl rfl
  notifyHblank h := h.congr rfl rfl rfl rfl
  mergeRequests {t} h := by
    obtain ⟨rfl, h2, h3⟩ := h
    rw [World.fits_iff] at h2
    exact ⟨rfl, (World.fits_iff _ _).2 ⟨h2.1, h2.2.1, atWidth_lt _ _, h2.2.2.2⟩, h3⟩

/-- The bus memory stays canonical. -/
theorem keptByBody_memory : KeptByBody (fun t => Memory.wf t.world.mem = true) where
  phaseS1 h := h
  readStart h := h
  dmaTryWork h := Memory.writes_wf _ _ h
  dmaTook h := h
  askPending h := h
  serviceInterrupt h := Memory.writes_wf _ _ h
  setRunning h := h
  readHalt h := h
  cpuStep h := Memory.writes_wf _ _ h
  countElapsed h := h
  idleTick h := h
  timerAdvance h := Memory.writes_wf _ _ h
  displayAdvance h := Memory.writes_wf _ _ h
  readFramebuffer h := h
  present h := h
  notifyVblank h := h
  notifyHblank h := h
  mergeRequests h := h

/-- What was presented before stays presented. -/
theorem keptByBody_presented : KeptByBody (fun t => s.presented <+: t.presented) where
  phaseS1 h := h
  readStart h := h
  dmaTryWork h := h
  dmaTook h := h
  askPending h := h
  serviceInterrupt h := h
  setRunning h := h
  readHalt h := h
  cpuStep h := h
  countElapsed h := h
  idleTick h := h
  timerAdvance h := h
  displayAdvance h := h
  readFramebuffer h := h
  present h := h.trans (List.prefix_append _ _)
  notifyVblank h := h
  notifyHblank h := h
  mergeRequests h := h

/-- A body issues none of the four micro-operations that belong to other commands. -/
theorem keptByBody_countOps (id : BitVec 5) (n : Nat) (hid : id = 1 ∨ id = 9 ∨ id = 15 ∨ id = 16) :
    KeptByBody (fun t => countOps id t.trace = n) := by
  have e : ∀ (xs : List MicroOp) (m : MicroOp), m.id ≠ id → countOps id xs = n → countOps id (xs ++ [m]) = n := by
    intro xs m hm h
    rw [← h]
    simp [countOps, hm]
  rcases hid with rfl | rfl | rfl | rfl <;>
  exact
    { phaseS1 := fun h => h
      readStart := fun h => e _ _ (by simp [MicroOp.id]) h
      dmaTryWork := fun h => e _ _ (by simp [MicroOp.id]) h
      dmaTook := fun h => h
      askPending := fun h => e _ _ (by simp [MicroOp.id]) h
      serviceInterrupt := fun h => e _ _ (by simp [MicroOp.id]) h
      setRunning := fun h => e _ _ (by simp [MicroOp.id]) h
      readHalt := fun h => e _ _ (by simp [MicroOp.id]) h
      cpuStep := fun h => e _ _ (by simp [MicroOp.id]) h
      countElapsed := fun h => e _ _ (by simp [MicroOp.id]) h
      idleTick := fun h => h
      timerAdvance := fun h => e _ _ (by simp [MicroOp.id]) h
      displayAdvance := fun h => e _ _ (by simp [MicroOp.id]) h
      readFramebuffer := fun h => e _ _ (by simp [MicroOp.id]) h
      present := fun h => e _ _ (by simp [MicroOp.id]) h
      notifyVblank := fun h => e _ _ (by simp [MicroOp.id]) h
      notifyHblank := fun h => e _ _ (by simp [MicroOp.id]) h
      mergeRequests := fun h => e _ _ (by simp [MicroOp.id]) h }

end State

end Sys2Proof.Machine
end

