-- ==== Sys2Proof/Laws/Commands.lean ====
section
/-!
SUPPORT. What the other commands and the loop tests of a `FRAME` answer, said once: a step at a loop test
(`step_loop_cases`), the start of a `FRAME` (`exec_frame_cases`), and the breakpoint commands case by case.
-/

namespace Sys2Proof.Machine

theorem DisplayState.isVblank_eq (l : DisplayState) : l.isVblank = decide (l = .vblank) := by cases l <;> rfl

theorem isBreakpoint_eq (bp : List Addr) (a : Addr) : isBreakpoint bp a = decide (a ∈ bp) := by simp [isBreakpoint]

theorem breakpointSetFull_eq (b : BuildParameters) (bp : List Addr) :
    breakpointSetFull b bp = decide (b.bpMax = some bp.length) := by
  unfold breakpointSetFull
  split <;> rename_i h <;> simp [h]
  rw [Bool.eq_iff_iff, beq_iff_eq, decide_eq_true_iff]
  exact eq_comm

namespace State

variable (s : State)

/-! ### Breakpoint commands -/

theorem exec_addBreakpoint_duplicate (a : Addr) (hf : s.fault = false) (h : a ∈ s.bp) :
    exec (.addBreakpoint a) s = .next (s.begin.respond .none 0) := by
  simp [exec, execAddBreakpoint, hf, isBreakpoint_eq, h]

theorem exec_addBreakpoint_full (a : Addr) (hf : s.fault = false) (h : a ∉ s.bp)
    (k : s.build.bpMax = some s.bp.length) : exec (.addBreakpoint a) s = .next (s.begin.respond .bpFull 0) := by
  simp [exec, execAddBreakpoint, hf, isBreakpoint_eq, breakpointSetFull_eq, h, k]

theorem exec_addBreakpoint_new (a : Addr) (hf : s.fault = false) (h : a ∉ s.bp)
    (k : s.build.bpMax ≠ some s.bp.length) :
    exec (.addBreakpoint a) s = .next ({ s.begin with bp := s.bp ++ [a] }.respond .okData (positionData s.build.addrW s.bp)) := by
  simp [exec, execAddBreakpoint, hf, isBreakpoint_eq, breakpointSetFull_eq, h, k]

theorem exec_checkBreakpoint_hit (hf : s.fault = false) (hr : s.begin.returns .cpuNextPc = true) (h : s.nextPc ∈ s.bp) :
    exec .checkBreakpoint s = .next ((s.begin.log (.cpuNextPc s.nextPc)).respond .okData s.nextPc) := by
  simp [exec, execCheckBreakpoint, hf, isBreakpoint_eq, h, State.call, hr]
  rfl

theorem exec_checkBreakpoint_miss (hf : s.fault = false) (hr : s.begin.returns .cpuNextPc = true) (h : s.nextPc ∉ s.bp) :
    exec .checkBreakpoint s = .next ((s.begin.log (.cpuNextPc s.nextPc)).respond .none 0) := by
  simp [exec, execCheckBreakpoint, hf, isBreakpoint_eq, h, State.call, hr]
  rfl

theorem exec_checkBreakpoint_stuck (hf : s.fault = false) (hr : s.begin.returns .cpuNextPc = false) :
    exec .checkBreakpoint s = .next (s.begin.hang .cpuNextPc) := by
  simp [exec, execCheckBreakpoint, hf, State.call, hr]

/-! ### `FRAME` -/

/-- The state after F1, when both its calls have returned. -/
def inputDone : State := s.pollInput.setKeyinput s.polledKey

theorem refreshInput_eq : s.refreshInput = Exit.ofCalls s.inputCalls (.completed s.inputDone) := by
  rw [State.refreshInput, call_eq, Exit.ofCalls_andThen]
  rfl

/-- A `FRAME` with `FAULT = 0` comes to its first loop test, or is stuck at one of the two calls of F1. -/
theorem exec_frame_cases (hf : s.fault = false) :
    (s.begin.inputReturns = true ∧ exec .frame s = .next { s.begin.inputDone with phase := .f2 }) ∨
    (∃ pre u c post, s.begin.inputReturns = false ∧ s.begin.inputCalls = pre ++ (u, c) :: post ∧
      allReturn pre = true ∧ u.returns c = false ∧ exec .frame s = .next (u.hang c)) := by
  have E : exec .frame s =
      .next (s.begin.refreshInput.andThen fun t => .completed { t with phase := .f2 }).state := by
    show execFrame s = _
    rw [execFrame, hf]
    rfl
  rw [refreshInput_eq, Exit.ofCalls_andThen] at E
  cases h : s.begin.inputReturns with
  | true => exact .inl ⟨rfl, by rw [E, Exit.ofCalls_of_returns _ h]; rfl⟩
  | false =>
    obtain ⟨pre, u, c, post, e1, e2, e3, e4⟩ := Exit.ofCalls_of_not_returns
      ((Exit.completed s.begin.inputDone).andThen fun t => .completed { t with phase := .f2 }) h
    exact .inr ⟨pre, u, c, post, rfl, e1, e2, e3, by rw [E, e4]; rfl⟩

theorem sameSetting_readLevel : SameSetting s s.readLevel := ⟨rfl, rfl, rfl, rfl, rfl, rfl, rfl, rfl, rfl, rfl⟩

/-- The ways of a step while a `FRAME` is at a loop test: F2 is left, the command ends, a body runs, or the read of the
level does not return. -/
theorem step_loop_cases (hp : s.inLoop = true) :
    (s.returns .displayState = false ∧ step s = .next (s.hang .displayState)) ∨
    (s.returns .displayState = true ∧ s.phase = .f2 ∧ s.displayLevel = .vblank ∧ s.loopsOn = false ∧
      step s = .next { s.readLevel with phase := .f3 }) ∨
    (s.returns .displayState = true ∧ s.phase = .f3 ∧ s.displayLevel ≠ .vblank ∧ s.loopsOn = false ∧
      step s = .next (s.readLevel.respond .ok 0)) ∨
    (s.returns .displayState = true ∧ s.loopsOn = true ∧ (s.phase = .f2 ↔ s.displayLevel ≠ .vblank) ∧
      (s.phase = .f3 ↔ s.displayLevel = .vblank) ∧ step s = .next s.readLevel.stepBody.state) := by
  simp only [State.inLoop, Bool.or_eq_true, beq_iff_eq] at hp
  cases hr : s.returns .displayState with
  | false =>
    refine .inl ⟨rfl, ?_⟩
    rcases hp with hp | hp
    · simp [step, hp, State.frameF2, State.call, hr]
    · simp [step, hp, State.frameF3, State.call, hr]
  | true =>
    refine .inr ?_
    rcases hp with hp | hp <;> by_cases hl : s.displayLevel = .vblank
    · exact .inl ⟨rfl, hp, hl, by simp [State.loopsOn, hp, DisplayState.isVblank_eq, hl],
        by simp [step, hp, State.frameF2, DisplayState.isVblank_eq, hl, State.call, hr]⟩
    · exact .inr (.inr ⟨rfl, by simp [State.loopsOn, hp, DisplayState.isVblank_eq, hl], by simp [hp, hl],
        by simp [hp, hl], by simp [step, hp, State.frameF2, DisplayState.isVblank_eq, hl, State.call, hr]⟩)
    · exact .inr (.inr ⟨rfl, by simp [State.loopsOn, hp, DisplayState.isVblank_eq, hl], by simp [hp, hl],
        by simp [hp, hl], by simp [step, hp, State.frameF3, DisplayState.isVblank_eq, hl, State.call, hr]⟩)
    · exact .inr (.inl ⟨rfl, hp, hl, by simp [State.loopsOn, hp, DisplayState.isVblank_eq, hl],
        by simp [step, hp, State.frameF3, DisplayState.isVblank_eq, hl, State.call, hr]⟩)

/-- Everything a step can start from: the caller's turn, a loop test, or a stuck command. -/
theorem phase_cases : s.phase = .idle ∨ s.inLoop = true ∨ ∃ c, s.phase = .stuck c := by
  cases h : s.phase with
  | idle => exact .inl rfl
  | f2 => exact .inr (.inl (by simp [State.inLoop, h]))
  | f3 => exact .inr (.inl (by simp [State.inLoop, h]))
  | stuck c => exact .inr (.inr ⟨c, rfl⟩)

/-- A stuck command stays as it is. -/
theorem step_stuck {c : Call} (h : s.phase = .stuck c) : step s = .next s := by simp [step, h]

end State

end Sys2Proof.Machine
end

