-- ==== Sys2Proof/Laws/Encoding.lean ====
section
/-!
SUPPORT. The fields of a command word: reading back what `makeWord` puts together, putting together what the field reads
take apart, and the fields as numbers.
-/

namespace Sys2Proof

@[simp] theorem opField_makeWord (aw : Nat) (op : BitVec 2) (arg : BitVec aw) : opField aw (makeWord aw op arg) = op := by
  ext i hi
  simp only [opField, makeWord, BitVec.getElem_extractLsb', BitVec.getLsbD_cast, BitVec.getLsbD_append]
  simp [BitVec.getLsbD_eq_getElem hi]

@[simp] theorem argField_makeWord (aw : Nat) (op : BitVec 2) (arg : BitVec aw) :
    argField aw (makeWord aw op arg) = arg := by
  ext i hi
  simp only [argField, makeWord, BitVec.getElem_extractLsb', BitVec.getLsbD_cast, BitVec.getLsbD_append]
  simp [hi]

theorem makeWord_fields (aw : Nat) (w : CmdWord aw) : makeWord aw (opField aw w) (argField aw w) = w := by
  ext i hi
  simp only [opField, argField, makeWord, ← BitVec.getLsbD_eq_getElem, BitVec.getLsbD_cast, BitVec.getLsbD_append,
    BitVec.getLsbD_extractLsb']
  by_cases h : i < aw
  · simp [h]
  · have : i - aw < 2 := by omega
    simp [h, this]
    congr 1
    omega

theorem opField_toNat (aw : Nat) (w : CmdWord aw) : (opField aw w).toNat = w.toNat / 2 ^ aw := by
  have h : (opField aw w).toNat = w.toNat >>> aw % 2 ^ 2 := by
    simp [opField, BitVec.extractLsb'_toNat]
  have hw : w.toNat < 2 ^ aw * 2 ^ 2 := by
    rw [← Nat.pow_add]
    exact w.isLt
  rw [h, Nat.shiftRight_eq_div_pow]
  exact Nat.mod_eq_of_lt (Nat.div_lt_of_lt_mul hw)

theorem argField_toNat (aw : Nat) (w : CmdWord aw) : (argField aw w).toNat = w.toNat % 2 ^ aw := by
  simp [argField, BitVec.extractLsb'_toNat]

end Sys2Proof
end

