-- ==== Sys2Proof/Laws/PerInstr.lean ====
section
/-!
SUPPORT. Statements made once for each constructor of `Instr`.
-/

/-- The two fields of a command's word, at any `ADDR_W`, are its opcode and its argument (spec/30_encoding.md R61). -/
def Sys2Proof.Laws.EncodedFields.Statement (i : Sys2Proof.Instr) : Prop :=
  ∀ aw : Nat, Sys2Proof.opField aw (Sys2Proof.encode aw i) = Sys2Proof.opcodeOf i ∧
    Sys2Proof.argField aw (Sys2Proof.encode aw i) = Sys2Proof.argumentOf aw i

theorem Sys2Proof.Laws.EncodedFields.step : Sys2Proof.Laws.EncodedFields.Statement .step :=
  fun _ => ⟨Sys2Proof.opField_makeWord _ _ _, Sys2Proof.argField_makeWord _ _ _⟩

theorem Sys2Proof.Laws.EncodedFields.frame : Sys2Proof.Laws.EncodedFields.Statement .frame :=
  fun _ => ⟨Sys2Proof.opField_makeWord _ _ _, Sys2Proof.argField_makeWord _ _ _⟩

theorem Sys2Proof.Laws.EncodedFields.addBreakpoint (address : Sys2Proof.Addr) :
    Sys2Proof.Laws.EncodedFields.Statement (.addBreakpoint address) :=
  fun _ => ⟨Sys2Proof.opField_makeWord _ _ _, Sys2Proof.argField_makeWord _ _ _⟩

theorem Sys2Proof.Laws.EncodedFields.checkBreakpoint : Sys2Proof.Laws.EncodedFields.Statement .checkBreakpoint :=
  fun _ => ⟨Sys2Proof.opField_makeWord _ _ _, Sys2Proof.argField_makeWord _ _ _⟩
end

