-- ==== Sys2Proof/Laws/StepCommand.lean ====
section
/-!
SUPPORT. What a `STEP` answers, said once (`exec_step_ends`, `exec_step_cases`), with the trace of each of its ways
(`trace_*`), the bytes it leaves (`mem_bodyDone`, `mem_raised`, `read_call`), and the laws of bit containment and of the
pending query.
-/

namespace Sys2Proof.Machine

theorem countOps_append (id : BitVec 5) (xs ys : List MicroOp) :
    countOps id (xs ++ ys) = countOps id xs + countOps id ys := by
  simp [countOps]

/-- `a ⊆ b` bit by bit. -/
theorem bitsWithin_iff (a b : IrqMask) : bitsWithin a b = true ↔ ∀ i, a.testBit i = true → b.testBit i = true := by
  rw [bitsWithin, beq_iff_eq]
  constructor
  · intro h i ha
    rw [← h, Nat.testBit_and, Bool.and_eq_true] at ha
    exact ha.2
  · intro h
    apply Nat.eq_of_testBit_eq
    intro i
    rw [Nat.testBit_and]
    cases ha : a.testBit i with
    | false => rfl
    | true => simp [h i ha]

theorem bitsWithin_trans {a b c : IrqMask} (h : bitsWithin a b = true) (k : bitsWithin b c = true) :
    bitsWithin a c = true := by
  rw [bitsWithin_iff] at *
  exact fun i ha => k i (h i ha)

theorem bitsWithin_or_right (a b : IrqMask) : bitsWithin a (b ||| a) = true := by
  rw [bitsWithin_iff]
  intro i ha
  simp [Nat.testBit_or, ha]

/-- Two masks that share a bit with a third still do after more bits are ORed in. -/
theorem and_ne_zero_of_or {m e : IrqMask} (p : IrqMask) (h : m &&& e ≠ 0) : (p ||| m) &&& e ≠ 0 := by
  intro hz
  apply h
  apply Nat.eq_of_testBit_eq
  intro i
  have := congrArg (fun v => v.testBit i) hz
  simp only [Nat.testBit_and, Nat.testBit_or, Nat.zero_testBit] at this ⊢
  cases h1 : m.testBit i <;> simp_all

/-- An enabled bit of what was merged is an enabled request. -/
theorem anyEnabledRequest_of_merged (ic : InterruptController) (m : IrqMask) (h : m &&& ic.enabled ≠ 0) :
    InterruptController.anyEnabledRequest { ic with requested := mergedRequests ic.requested m } = true := by
  simp only [InterruptController.anyEnabledRequest, mergedRequests, bne_iff_ne, ne_eq]
  exact and_ne_zero_of_or _ h

namespace State

variable (s : State)

@[simp] theorem begin_cycles : s.begin.cycles = s.cycles := rfl
@[simp] theorem respond_status (st : Status) (d : Addr) : (s.respond st d).status = some st := rfl
@[simp] theorem raiseFault_status (info : FaultInfo) : (s.raiseFault info).status = some .fault := rfl
@[simp] theorem tailDone_cycles : s.tailDone.cycles = s.cycles := by simp [State.cycles]

/-! ### What S1 to S5 keep -/

theorem atHaltTest_keeps :
    s.atHaltTest.irqAcc = s.atDma.dmaAnswer.irqAcc ∧ s.atHaltTest.start = s.cycles ∧
    s.atHaltTest.took = s.dmaTakes ∧ s.atHaltTest.presented = s.presented := by
  cases hp : s.atQuery.pending with
  | true => rw [atHaltTest_pending s hp]; exact ⟨rfl, rfl, rfl, rfl⟩
  | false => rw [atHaltTest_quiet s hp]; exact ⟨rfl, rfl, rfl, rfl⟩

theorem atTimer_presented : s.atTimer.presented = s.presented := by
  have k := (atHaltTest_keeps s).2.2.2
  unfold State.atTimer
  split
  · rfl
  · split <;> exact k

theorem atTimer_irqAcc : s.atTimer.irqAcc = s.atDma.dmaAnswer.irqAcc := by
  have k := (atHaltTest_keeps s).1
  unfold State.atTimer
  split
  · rfl
  · split <;> exact k

/-- The count handed to the peripherals after an instruction is the counter's delta since S2. -/
theorem executed_elapsed : s.executed.elapsed = elapsedSince s.cycles s.executed.cycles := by
  simp only [State.executed, countElapsed_elapsed]
  have : s.atCpuStep.cpuStep.start = s.cycles := (atHaltTest_keeps s).2.1
  rw [this]
  rfl

/-! ### The trace before S6, of a `STEP` -/

theorem trace_atQuery (h : s.begin.dmaTakes = false) : s.begin.atQuery.trace =
    [.cpuCycles s.cycles, .dmaTryWork 0 s.begin.atDma.dmaAnswer.irqAcc false] := by
  have : s.begin.atDma.dmaAnswer.took = false := h
  rw [← this]
  rfl

theorem trace_dmaTook (h : s.begin.dmaTakes = true) : s.begin.atQuery.dmaTook.trace =
    [.cpuCycles s.cycles, .dmaTryWork 0 s.begin.atDma.dmaAnswer.irqAcc true] := by
  have : s.begin.atDma.dmaAnswer.took = true := h
  rw [← this]
  rfl

theorem trace_atHaltTest (h : s.begin.dmaTakes = false) : s.begin.atHaltTest.trace =
    [.cpuCycles s.cycles, .dmaTryWork 0 s.begin.atDma.dmaAnswer.irqAcc false] ++
      (if s.begin.services then [.icPending true, .cpuServiceInterrupt, .ioSetRunning] else [.icPending false]) := by
  have hq := trace_atQuery s h
  rw [← pending_eq_services _ h]
  cases hp : s.begin.atQuery.pending with
  | true => rw [atHaltTest_pending _ hp]; simp [State.atWake, State.atService, hq, hp]
  | false => rw [atHaltTest_quiet _ hp]; simp [hq, hp]

theorem trace_idled (h : s.begin.idles = true) : s.begin.idled.trace =
    [.cpuCycles s.cycles, .dmaTryWork 0 s.begin.atDma.dmaAnswer.irqAcc false] ++
      (if s.begin.services then [.icPending true, .cpuServiceInterrupt, .ioSetRunning] else [.icPending false]) ++
      [.ioHaltRunning false] := by
  simp [State.idled, trace_atHaltTest s (idles_spec _ h).1]

theorem trace_cpuStep (h : s.begin.dmaTakes = false) : s.begin.atCpuStep.cpuStep.trace =
    [.cpuCycles s.cycles, .dmaTryWork 0 s.begin.atDma.dmaAnswer.irqAcc false] ++
      (if s.begin.services then [.icPending true, .cpuServiceInterrupt, .ioSetRunning] else [.icPending false]) ++
      [.ioHaltRunning true, .cpuStep s.begin.atCpuStep.cpuStepAnswer.result] := by
  simp [State.atCpuStep, trace_atHaltTest s h]

theorem trace_executed : s.begin.executed.trace =
    s.begin.atCpuStep.cpuStep.trace ++ [.cpuCycles s.begin.executed.cycles] := by
  simp only [State.executed, countElapsed_trace]
  rfl

/-! ### What `STEP` answers -/

/-- The three ways of a `STEP` with `FAULT = 0`: it completes, it stops at a fatal fault, or it is stuck at a call that does
not return, the ones before it having returned. -/
theorem exec_step_ends (hf : s.fault = false) :
    (s.begin.bodyReturns = true ∧ s.begin.completes = true ∧
      exec .step s = .next (s.begin.bodyDone.respond .ok 0)) ∨
    (∃ info, s.begin.bodyReturns = true ∧ s.begin.faultsWith info ∧
      exec .step s = .next (s.begin.atCpuStep.cpuStep.raiseFault info)) ∨
    (∃ pre u c post, s.begin.bodyReturns = false ∧ s.begin.bodyCalls = pre ++ (u, c) :: post ∧ allReturn pre = true ∧
      u.returns c = false ∧ exec .step s = .next (u.hang c)) := by
  have E : exec .step s = .next (s.begin.stepBody.andThen fun t => .completed (t.respond .ok 0)).state := by
    show execStep s = _
    rw [execStep, hf]
    rfl
  rcases stepBody_cases s.begin with ⟨h1, h2, e⟩ | ⟨i, h1, h2, e⟩ | ⟨pre, u, c, post, h1, h2, h3, h4, e⟩ <;>
    rw [e] at E
  · exact .inl ⟨h1, h2, E⟩
  · exact .inr (.inl ⟨i, h1, h2, E⟩)
  · exact .inr (.inr ⟨pre, u, c, post, h1, h2, h3, h4, E⟩)

/-- The four ways of a `STEP` with `FAULT = 0` whose calls all return: the DMA Engine takes the cycle, an idle tick, an
instruction that succeeds, an instruction that faults. -/
theorem exec_step_cases (hf : s.fault = false) (hr : s.begin.bodyReturns = true) :
    (s.begin.dmaTakes = true ∧ s.begin.services = false ∧ s.begin.executes = false ∧ s.begin.idles = false ∧
      exec .step s = .next (s.begin.atQuery.dmaTook.tailDone.respond .ok 0)) ∨
    (s.begin.dmaTakes = false ∧ s.begin.executes = false ∧ s.begin.idles = true ∧
      exec .step s = .next (s.begin.idled.tailDone.respond .ok 0)) ∨
    (s.begin.dmaTakes = false ∧ s.begin.executes = true ∧ s.begin.idles = false ∧
      s.begin.atCpuStep.cpuStepAnswer.result = .ok ∧
      exec .step s = .next (s.begin.executed.tailDone.respond .ok 0)) ∨
    (∃ info, s.begin.dmaTakes = false ∧ s.begin.executes = true ∧ s.begin.idles = false ∧
      s.begin.atCpuStep.cpuStepAnswer.result = .fault info ∧
      exec .step s = .next (s.begin.atCpuStep.cpuStep.raiseFault info)) := by
  have K : ∀ t, s.begin.completes = true → s.begin.atTimer = t → exec .step s = .next (t.tailDone.respond .ok 0) := by
    rintro t hc rfl
    rcases exec_step_ends s hf with ⟨-, -, e⟩ | ⟨i, -, h, -⟩ | ⟨_, _, _, _, h, -⟩
    · exact e
    · rw [completes_of_faultsWith _ h] at hc; cases hc
    · rw [hr] at h; cases h
  rcases arbiter_cases s.begin with
    ⟨h1, h2, h3, h4, hc, ht⟩ | ⟨h1, h2, h3, hc, ht⟩ | ⟨h1, h2, h3, h4, hc, ht⟩ | ⟨i, h1, h2, h3, h4, hc⟩
  · exact .inl ⟨h1, h2, h3, h4, K _ hc ht⟩
  · exact .inr (.inl ⟨h1, h2, h3, K _ hc ht⟩)
  · exact .inr (.inr (.inl ⟨h1, h2, h3, h4, K _ hc ht⟩))
  · refine .inr (.inr (.inr ⟨i, h1, h2, h3, h4, ?_⟩))
    rcases exec_step_ends s hf with ⟨-, k, -⟩ | ⟨j, -, h, e⟩ | ⟨_, _, _, _, h, -⟩
    · rw [hc] at k; cases k
    · have : CpuResult.fault j = .fault i := h.2.symm.trans h4
      cases this
      exact e
    · rw [hr] at h; cases h

/-- A `STEP` that completes has had every call return. -/
theorem exec_step_ok {t : State} (hf : s.fault = false) (he : exec .step s = .next t) (hs : t.status = some .ok) :
    s.begin.bodyReturns = true ∧ s.begin.completes = true ∧ t = s.begin.bodyDone.respond .ok 0 := by
  rcases exec_step_ends s hf with ⟨h1, h2, e⟩ | ⟨i, -, -, e⟩ | ⟨_, u, c, _, -, h, -, -, e⟩ <;>
    rw [e] at he <;> cases he
  · exact ⟨h1, h2, rfl⟩
  · cases hs
  · have hu := (sameSetting_call s.begin (h ▸ List.mem_append_right _ List.mem_cons_self)).response
    simp [State.status, hu] at hs

/-! ### Bus memory and the CPU in the states of a body -/

theorem mem_atHaltTest : s.atHaltTest.world.mem =
    Memory.writes (if s.atQuery.pending then s.atService.cpuServiceAnswer.writes else [])
      (Memory.writes s.atDma.dmaAnswer.writes s.world.mem) := by
  cases hp : s.atQuery.pending with
  | true => rw [atHaltTest_pending s hp]; rfl
  | false => rw [atHaltTest_quiet s hp]; rfl

theorem mem_atTimer : s.atTimer.world.mem = Memory.writes
    (s.atDma.dmaAnswer.writes ++ (if s.services then s.atService.cpuServiceAnswer.writes else []) ++
      (if s.executes then s.atCpuStep.cpuStepAnswer.writes else [])) s.world.mem := by
  have hm := mem_atHaltTest s
  simp only [Memory.writes_append]
  unfold State.atTimer
  cases hd : s.dmaTakes with
  | true => simp [State.services, State.executes, hd]; rfl
  | false =>
    rw [pending_eq_services s hd] at hm
    rw [← hm]
    cases s.executes <;> rfl

/-- The bytes a completed body leaves are the ones its collaborators stored. -/
theorem mem_bodyDone (h : s.completes = true) : s.bodyDone.world.mem = Memory.writes s.bodyWrites s.world.mem := by
  rw [State.bodyDone, tailDone_mem, mem_atTimer, ← Memory.writes_append, State.bodyWrites, h, if_pos rfl]
  rfl

theorem mem_raised {info : FaultInfo} (h : s.faultsWith info) :
    s.atCpuStep.cpuStep.world.mem = Memory.writes s.bodyWrites s.world.mem := by
  have hm := mem_atHaltTest s
  rw [pending_eq_services s (executes_dmaTakes s h.1)] at hm
  have e : s.atCpuStep.cpuStep.world.mem =
      Memory.writes s.atCpuStep.cpuStepAnswer.writes s.atHaltTest.world.mem := rfl
  simp only [e, hm, State.bodyWrites, h.1, completes_of_faultsWith s h, Memory.writes_append]
  rfl

/-- In each state in which a body makes a call, what its collaborators never store to reads as before. -/
theorem read_call {u : State} {c : Call} (h : (u, c) ∈ s.bodyCalls) (a : Nat) (ha : ∀ p ∈ s.bodyWrites, p.1 ≠ a) :
    Memory.read u.world.mem a = Memory.read s.world.mem a := by
  simp only [State.bodyWrites, List.mem_append] at ha
  have hq : Memory.read s.atQuery.world.mem a = Memory.read s.world.mem a :=
    Memory.read_writes_other _ _ _ fun p hp => ha p (.inl (.inl (.inl hp)))
  have hw : s.services = true → Memory.read s.atWake.world.mem a = Memory.read s.world.mem a := fun hs =>
    (Memory.read_writes_other s.atService.cpuServiceAnswer.writes s.atQuery.world.mem a
      fun p hp => ha p (.inl (.inl (.inr (by rw [hs]; exact hp))))).trans hq
  have hh : s.dmaTakes = false → Memory.read s.atHaltTest.world.mem a = Memory.read s.world.mem a := by
    intro hd
    cases hp : s.atQuery.pending with
    | true => rw [atHaltTest_pending s hp]; exact hw (by rw [← pending_eq_services s hd]; exact hp)
    | false => rw [atHaltTest_quiet s hp]; exact hq
  have hx : s.executes = true → Memory.read s.atCpuStep.cpuStep.world.mem a = Memory.read s.world.mem a := fun hx =>
    (Memory.read_writes_other s.atCpuStep.cpuStepAnswer.writes s.atHaltTest.world.mem a
      fun p hp => ha p (.inl (.inr (by rw [hx]; exact hp)))).trans (hh (executes_dmaTakes s hx))
  rcases bodyCalls_cases s h with rfl | rfl | ⟨-, rfl⟩ | ⟨-, rfl⟩ | ⟨hs, rfl⟩ | ⟨hd, rfl⟩ | ⟨he, rfl⟩ | ⟨he, rfl⟩ | ⟨hc, hu⟩
  · rfl
  · rfl
  · exact hq
  · exact hq
  · exact hw hs
  · exact hh hd
  · exact hh (executes_dmaTakes s he)
  · exact hx he
  · have ht : Memory.read s.atTimer.world.mem a = Memory.read s.world.mem a := by
      unfold State.atTimer
      split
      · exact hq
      · split
        · exact hx ‹_›
        · exact hh (by simpa using ‹¬ s.dmaTakes = true›)
    have ha : ∀ p ∈ s.atTimer.timerAnswer.writes ++ s.atDisplay.displayAnswer.writes, p.1 ≠ a := fun p hp =>
      ha p (.inr (by rw [hc]; exact hp))
    have h1 : Memory.read s.atDisplay.world.mem a = Memory.read s.world.mem a :=
      (Memory.read_writes_other s.atTimer.timerAnswer.writes s.atTimer.world.mem a
        fun p hp => ha p (List.mem_append_left _ hp)).trans ht
    have h2 : Memory.read s.atDisplay.displayAdvance.world.mem a = Memory.read s.world.mem a :=
      (Memory.read_writes_other s.atDisplay.displayAnswer.writes s.atDisplay.world.mem a
        fun p hp => ha p (List.mem_append_right _ hp)).trans h1
    rcases hu with rfl | rfl | rfl | rfl | rfl | rfl
    · exact ht
    · exact h1
    · exact h2
    · exact h2
    · exact h2
    · rw [State.atMerge, edgeDone_mem]; exact h2

/-- A body that calls the CPU neither for an interrupt nor for an instruction leaves it alone. -/
theorem cpu_atTimer (hs : s.services = false) (hx : s.executes = false) : s.atTimer.world.cpu = s.world.cpu := by
  unfold State.atTimer
  cases hd : s.dmaTakes with
  | true => rfl
  | false =>
    have hp : s.atQuery.pending = false := (pending_eq_services s hd).trans hs
    simp only [hx, State.idled, atHaltTest_quiet s hp]
    rfl

theorem cpu_call {u : State} {c : Call} (h : (u, c) ∈ s.bodyCalls) (hs : s.services = false)
    (hx : s.executes = false) : u.world.cpu = s.world.cpu := by
  have ht := cpu_atTimer s hs hx
  rcases bodyCalls_cases s h with rfl | rfl | ⟨-, rfl⟩ | ⟨h, -⟩ | ⟨h, -⟩ | ⟨hd, rfl⟩ | ⟨h, -⟩ | ⟨h, -⟩ | ⟨-, hu⟩
  · rfl
  · rfl
  · rfl
  · rw [hs] at h; cases h
  · rw [hs] at h; cases h
  · rw [atHaltTest_quiet s ((pending_eq_services s hd).trans hs)]; rfl
  · rw [hx] at h; cases h
  · rw [hx] at h; cases h
  · rcases hu with rfl | rfl | rfl | rfl | rfl | rfl
    · exact ht
    · exact ht
    · exact ht
    · exact ht
    · exact ht
    · rw [State.atMerge, edgeDone_cpu]; exact ht

end State

end Sys2Proof.Machine
end

