-- ==== Sys2Proof/Machine/Script.lean ====
section
/-!
DEFINITION. The text of a command script (spec/30_encoding.md R72): one command a line, mnemonics in capitals, an
address in decimal or with `0x` in hexadecimal, `;` to the end of the line a comment.  There are no labels, branches,
data directives or pseudo-instructions (R72, R73).  A line is a list of characters.

The spec does not say whether a line may begin or end with blanks, or whether a hexadecimal digit may be a small letter;
both are accepted (log 14).
-/

namespace Sys2Proof

/-- The line without its comment. -/
def dropComment (line : List Char) : List Char := line.takeWhile (· != ';')

/-- The words of a line, separated by blanks; `word` holds the letters of the word being read. -/
def wordsFrom (word : List Char) : List Char → List (List Char)
  | [] => if word.isEmpty then [] else [word]
  | c :: rest =>
    if c = ' ' then (if word.isEmpty then wordsFrom [] rest else word :: wordsFrom [] rest)
    else wordsFrom (word ++ [c]) rest

/-- A decimal digit's value. -/
def decimalDigit (c : Char) : Option Nat :=
  if 48 ≤ c.toNat ∧ c.toNat ≤ 57 then some (c.toNat - 48) else none

/-- A hexadecimal digit's value. -/
def hexDigit (c : Char) : Option Nat :=
  if 65 ≤ c.toNat ∧ c.toNat ≤ 70 then some (c.toNat - 55)
  else if 97 ≤ c.toNat ∧ c.toNat ≤ 102 then some (c.toNat - 87)
  else decimalDigit c

/-- The number a list of digits stands for in a base, read from the left after the value `acc`. -/
def digitsValue (base : Nat) (digit : Char → Option Nat) : Nat → List Char → Option Nat
  | acc, [] => some acc
  | acc, c :: rest =>
    match digit c with
    | none => none
    | some d => digitsValue base digit (acc * base + d) rest

/-- A number of a script: hexadecimal with `0x`, or decimal; at least one digit. -/
def numberOf : List Char → Option Nat
  | '0' :: 'x' :: c :: rest => digitsValue 16 hexDigit 0 (c :: rest)
  | c :: rest => digitsValue 10 decimalDigit 0 (c :: rest)
  | [] => none

/-- The mnemonic a word stands for. -/
def mnemonicOf (word : List Char) : Option Mnemonic :=
  if word = ['S', 'T', 'E', 'P'] then some .step
  else if word = ['F', 'R', 'A', 'M', 'E'] then some .frame
  else if word = ['A', 'D', 'D', '_', 'B', 'R', 'E', 'A', 'K', 'P', 'O', 'I', 'N', 'T'] then some .addBreakpoint
  else if word = ['C', 'H', 'E', 'C', 'K', '_', 'B', 'R', 'E', 'A', 'K', 'P', 'O', 'I', 'N', 'T'] then
    some .checkBreakpoint
  else none

/-- The script line the words of a line stand for. -/
def scriptLineOf : List (List Char) → Option ScriptLine
  | [m] => (mnemonicOf m).map (fun k => { mnemonic := k, operand := none })
  | [m, n] => (mnemonicOf m).bind (fun k => (numberOf n).map (fun a => { mnemonic := k, operand := some a }))
  | _ => none

/-- The commands of a script's lines, executed top to bottom; none if a line is neither blank nor a command. -/
def assemble (aw : Nat) : List (List Char) → Option (List Instr)
  | [] => some []
  | line :: rest =>
    let words := wordsFrom [] (dropComment line)
    if words.isEmpty then assemble aw rest
    else
      match scriptLineOf words with
      | none => none
      | some l =>
        match assembleLine aw l, assemble aw rest with
        | some i, some is => some (i :: is)
        | _, _ => none

end Sys2Proof
end

