-- ==== Sys2Proof/Tests/Slice0.lean ====
section
/-!
SUPPORT. Tests.  Expected values are those of spec/30_encoding.md and of the vectors of spec/95_test_vectors.md named in
each docstring; the collaborators of a vector answer what its stub world says, through the queues of State.env.

The theorems named `witness_…` show, for each statement of Certificates/Slice0/Obligations.lean that has hypotheses, a
state that meets them together, and one for each clause where a statement has several.
-/

namespace Sys2Proof.Tests

open Sys2Proof Sys2Proof.Machine

/-! ### Well-formedness: each check refuses an ill-formed line -/

theorem test_stray_operand_refused : (ScriptLine.mk .step (some 0)).noStrayOperand = false := by decide
theorem test_missing_address_refused : (ScriptLine.mk .addBreakpoint none).operandPresent = false := by decide
theorem test_address_out_of_range_refused :
    (ScriptLine.mk .addBreakpoint (some 0x100000000)).addressInRange 32 = false := by decide
theorem test_largest_address_accepted : (ScriptLine.mk .addBreakpoint (some 0xFFFFFFFF)).wellFormed 32 = true := by decide
/-- An address is well formed at one `ADDR_W` and not at a smaller one. -/
theorem test_wellFormed_is_about_the_width :
    (Instr.addBreakpoint 0x10000).WellFormed 32 ∧ ¬ (Instr.addBreakpoint 0x10000).WellFormed 16 := by decide

/-! ### Decoding: words written out from R61, `op` in bits 33..32 and `arg` in bits 31..0 -/

/-- `00` and 32 zeros. -/
theorem test_decode_step : decode 32 0b0000000000000000000000000000000000#34 = .step := by decide
/-- `01` and a set bit that is ignored (R71). -/
theorem test_decode_frame : decode 32 0b0100000000000000000000000000000001#34 = .frame := by decide
/-- `10` and 0x08000100 bit by bit. -/
theorem test_decode_addBreakpoint :
    decode 32 0b1000001000000000000000000100000000#34 = .addBreakpoint 0x08000100 := by decide
/-- `11` and 32 zeros. -/
theorem test_decode_checkBreakpoint : decode 32 0b1100000000000000000000000000000000#34 = .checkBreakpoint := by decide
/-- The numbering of spec/opcode_table.json, and a number that is no command word. -/
theorem test_decodeTableWord :
    decodeTableWord 34 0x208000104 = some (.addBreakpoint 0x08000104) ∧ decodeTableWord 40 0x400000000 = none := by
  decide
/-- At `ADDR_W = 16` a command is an 18-bit word (R61). -/
theorem test_decode_at_16 : decode 16 0b10_0001001000110100#18 = .addBreakpoint 0x1234 := by decide

/-- A script as R72 writes it: a comment, a hexadecimal and a decimal address, a blank line. -/
theorem test_script : assemble 32
    ["ADD_BREAKPOINT 0x10 ; first".toList, "".toList, "ADD_BREAKPOINT 32".toList, "STEP".toList] =
    some [.addBreakpoint 16, .addBreakpoint 32, .step] := by decide

/-! ### A small world -/

/-- The IO-device aggregate with the values a vector gives. -/
def io (halt : HaltState) (level : DisplayState) (fbn : FrameBuffer) (pend en : IrqMask) : IoAggregate :=
  { Config.resetWorld.io with
    halt := halt
    display := { level := level, framebuffer := fbn, internal := [] }
    ic := { requested := pend, enabled := en } }

/-- A CPU at a cycle count and a next-instruction address. -/
def cpu (cyc : Nat) (pc : Addr) : Cpu := { cycles := cyc, pc := pc, nextPc := pc, regs := [] }

/-- The state after reset with this CPU and these devices, the next 40 calls returning. -/
def state (c : Cpu) (d : IoAggregate) : State :=
  { State.reset with
    world := { cpu := c, mem := [], io := d }
    env := { Environment.empty with returns := List.replicate 40 true } }

/-- Of the calls ahead, the first `n` return and the one after does not. -/
def hangs (n : Nat) (s : State) : State :=
  { s with env := { s.env with returns := List.replicate n true ++ [false] } }

/-- The DMA Engine's next answer, and where it declines the answer to the query that follows, by a controller that keeps
R192. -/
def dma (s : State) (took : Bool) (m : IrqMask) (d : IoAggregate) : State :=
  { s with env := { s.env with
      dmaTryWork := s.env.dmaTryWork ++ [{ writes := [(16, 7)], io := d, irqAcc := m, took := took }]
      icPending := s.env.icPending ++ (if took then [] else [d.ic.anyEnabledRequest]) } }

/-- The interrupt-entry routine's next answer, and the Halt State `IO.set_running` leaves. -/
def entryLeaving (h : HaltState) (s : State) (c : Cpu) (d : IoAggregate) : State :=
  { s with env := { s.env with cpuServiceInterrupt := [{ cpu := c, writes := [], io := d }], ioSetRunning := [h] } }

/-- The same with an `IO.set_running` that keeps R195. -/
def entry : State → Cpu → IoAggregate → State := entryLeaving .running

/-- The next instruction's answer. -/
def instr (s : State) (c : Cpu) (d : IoAggregate) (r : CpuResult) : State :=
  { s with env := { s.env with cpuStep := [{ cpu := c, writes := [], io := d, result := r }] } }

/-- The peripherals' next answers, and the merge of a controller that keeps R193. -/
def peripherals (s : State) (m1 : IrqMask) (d1 : IoAggregate) (m2 : IrqMask) (d2 : IoAggregate)
    (t : Option DisplayState) : State :=
  { s with env := { s.env with
      timerAdvance := s.env.timerAdvance ++ [{ writes := [], io := d1, irqAcc := m1 }]
      displayAdvance := s.env.displayAdvance ++ [{ writes := [], io := d2, irqAcc := m2, trans := t }]
      icMergeRequests := s.env.icMergeRequests ++ [mergedRequests d2.ic.requested m2] } }

/-- The state an outcome goes on in. -/
def after : Host.Outcome State Fault Refusal → State
  | .next s => s
  | .fault r => nomatch r
  | .refused _ => State.reset

/-- A `FRAME` at one of its loop tests. -/
def inFrame (p : Phase) (s : State) : State := { s with phase := p }

/-- A `FRAME` at one of its loop tests, with a level and nothing queued. -/
def atLevel (p : Phase) (l : DisplayState) : State := inFrame p (state (cpu 0 0) (io .running l 0 0 0))

/-! ### Vectors -/

/-- V9: halted, an interrupt pending: entry, wake and one instruction, `elapsed` 2 + 3, then the HBlank edge. -/
def v9 : State :=
  peripherals (instr (entry (dma (state (cpu 200 0x08000010) (io .halted .drawing 0 8 8)) false 0
      (io .halted .drawing 0 8 8)) (cpu 202 0x18) (io .halted .drawing 0 8 8)) (cpu 205 0x1C)
    (io .running .drawing 0 0 8) .ok) 0 (io .running .drawing 0 0 8) 2 (io .running .hblank 0 0 8) (some .hblank)

theorem test_step_v9 :
    (after (exec .step v9)).trace =
      [.cpuCycles 200, .dmaTryWork 0 0 false, .icPending true, .cpuServiceInterrupt, .ioSetRunning, .ioHaltRunning true,
        .cpuStep .ok, .cpuCycles 205, .timerAdvance 5 0 0, .displayAdvance 5 0 2 (some .hblank), .dmaNotifyHblank,
        .icMergeRequests 2] ∧
    (after (exec .step v9)).world.io.ic.requested = 2 := by decide

/-- V11: the DMA Engine declines and raises 0x0100, then the instruction faults: the bit is dropped. -/
def v11 : State :=
  instr (dma (state (cpu 10 0x08000000) (io .running .drawing 0 0 0)) false 0x0100 (io .running .drawing 0 0 0))
    (cpu 11 0x08000000) (io .running .drawing 0 0 0) (.fault 7)

theorem test_step_v11 :
    (after (exec .step v11)).trace =
      [.cpuCycles 10, .dmaTryWork 0 0x0100 false, .icPending false, .ioHaltRunning true, .cpuStep (.fault 7)] ∧
    (after (exec .step v11)).response = some { status := .fault, data := 0, info := 7 } ∧
    (after (exec .step v11)).world.io.ic.requested = 0 ∧ (after (exec .step v11)).world.cpu.cycles = 11 := by decide

/-- The first two micro-operations of FV1: one key sample, copied unchanged. -/
def fv1 : State :=
  { state (cpu 0 0x08000000) (io .running .drawing 0 0 0) with
    env := { Environment.empty with
      polledKeys := [0x3FF, 0x3FE]
      keyInputEffect := [{ io .running .drawing 0 0 0 with keyInput := 0x3FF }]
      returns := [true, true] } }

theorem test_frame_fv1_start :
    (after (exec .frame fv1)).trace = [.backendPollInput 0x3FF, .ioSetKeyinput 0x3FF] ∧
    (after (exec .frame fv1)).world.io.keyInput = 0x3FF ∧ (after (exec .frame fv1)).phase = .f2 := by decide

/-- The end of a `FRAME`: the level is read once more and the response is `OK` (R143). -/
theorem test_frame_end :
    (after (step (atLevel .f3 .drawing))).trace = [.displayState .drawing] ∧
    (after (step (atLevel .f3 .drawing))).status = some .ok := by decide

/-- The state of BV7 to BV10, and a set that is full with two entries (BV17). -/
def bvState (next : Addr) : State :=
  { state (cpu 0 next) (io .running .drawing 0 0 0) with
    bp := [0x08000100, 0x08000104, 0, 0xFFFFFFFF] }
def bvFull : State :=
  { State.reset with bp := [0x10, 0x20], build := { State.reset.build with bpMax := some 2 } }

/-- BV11 and BV18: a misaligned new address gets the next position; a new address on a full set is `BP_FULL`. -/
theorem test_addBreakpoint_bv11_bv18 :
    (after (exec (.addBreakpoint 0x08000101) (bvState 0))).response.map (·.word 32) = some 0x100000004#35 ∧
    (after (exec (.addBreakpoint 0x30) bvFull)).response.map (·.word 32) = some 0x500000000#35 := by decide

/-- BV19: the duplicate test comes first. -/
theorem test_addBreakpoint_bv19 :
    (after (exec (.addBreakpoint 0x10) bvFull)).response.map (·.word 32) = some 0x200000000#35 := by decide

/-- BV8 and BV9: address 0 and the all-ones address are ordinary addresses. -/
theorem test_checkBreakpoint_bv8_bv9 :
    (after (exec .checkBreakpoint (bvState 0))).response.map (·.word 32) = some 0x100000000#35 ∧
    (after (exec .checkBreakpoint (bvState 0xFFFFFFFF))).response.map (·.word 32) = some 0x1FFFFFFFF#35 := by decide

/-- BV10: no alignment masking. -/
theorem test_checkBreakpoint_bv10 :
    (after (exec .checkBreakpoint (bvState 0x08000102))).response.map (·.word 32) = some 0x200000000#35 := by decide

/-! ### Witnesses -/

/-- The DMA Engine takes the cycle; the display moves to `VBlank` on `advance(0)` (V7). -/
def v7 : State :=
  peripherals (dma (state (cpu 300 0x08000000) (io .running .hblank 0 0 0)) true 0 (io .running .hblank 0 0 0))
    0 (io .running .hblank 0 0 0) 1 (io .running .vblank 1 0 0) (some .vblank)

/-- A halted machine with nothing pending whose timer overflows (V8). -/
def v8 : State :=
  peripherals (dma (state (cpu 1000 0x08000000) (io .halted .drawing 0 0 8)) false 0 (io .halted .drawing 0 0 8))
    8 (io .halted .drawing 0 0 8) 8 (io .halted .drawing 0 0 8) none

/-- A running machine, the instruction takes 3 cycles (V1). -/
def v1 : State :=
  peripherals (instr (dma (state (cpu 100 0x08000000) (io .running .drawing 0 0 0)) false 0
      (io .running .drawing 0 0 0)) (cpu 103 0x08000004) (io .running .drawing 0 0 0) .ok)
    0 (io .running .drawing 0 0 0) 0 (io .running .drawing 0 0 0) none

/-- A `DISPLAY.advance` that never returns (U5): the calls before it are in the trace, the timer has advanced, and there is
no response. -/
theorem test_step_hangs :
    (after (exec .step (hangs 7 v1))).trace =
      [.cpuCycles 100, .dmaTryWork 0 0 false, .icPending false, .ioHaltRunning true, .cpuStep .ok, .cpuCycles 103,
        .timerAdvance 3 0 0] ∧
    (after (exec .step (hangs 7 v1))).phase = .stuck (.displayAdvance 3 0) ∧
    (after (exec .step (hangs 7 v1))).response = none := by decide

/-- A faulted machine whose caller resets next. -/
def faulted (rest : List CallerAction) : State :=
  { State.reset with fault := true, faultInfo := 42, bp := [1], caller := rest }

theorem state_inv (s : State) (hm : Memory.wf s.world.mem = true) (hb : s.bp.Nodup) (hx : s.build = State.reset.build)
    (hw : ∀ a ∈ s.bp, a < 2 ^ 32) (hq : s.irqAcc < 2 ^ 16) (hv : s.world.fits s.build = true) (hr : s.response = none)
    (hf : s.fault = true → s.phase = .idle) : s.Inv where
  memory := hm
  bpNodup := hb
  bpBound := by rw [hx]; intro m h; cases h
  bpWidth := by rw [hx]; exact hw
  irqWidth := by rw [hx]; exact hq
  worldFits := hv
  dataWidth := by rw [hr]; intro r h; cases h
  w0Memory := by rw [hx]; decide
  w0Fits := by rw [hx]; decide
  w0Display := by rw [hx]; decide
  faultIdle := hf
  busy := fun _ => hr

/-! Encoding. -/

theorem witness_EveryWordDecodesByItsOpcode :
    (0x0FFFFFFFF#34).toNat / 2 ^ 32 = 0 ∧ (0x100000000#34).toNat / 2 ^ 32 = 1 ∧ (0x1FFFFFFFF#34).toNat / 2 ^ 32 = 1 ∧
    (0x200000000#34).toNat / 2 ^ 32 = 2 ∧ (0x2FFFFFFFF#34).toNat / 2 ^ 32 = 2 ∧ (0x300000000#34).toNat / 2 ^ 32 = 3 ∧
    (0x3FFFFFFFF#34).toNat / 2 ^ 32 = 3 := by decide

theorem witness_DecodeAndEncodeAgree :
    (Instr.addBreakpoint 0xFFFFFFFF).WellFormed 32 ∧ opField 32 0x2FFFFFFFF#34 = 0b10#2 := by decide

theorem witness_ResponseWordHoldsStatusAndData :
    ({ status := .okData, data := 0xFFFFFFFF, info := 0 } : Response).data < 2 ^ 32 := by decide

theorem witness_TransitionCodesReadBack :
    (3#3).toNat < 4 ∧ (4#3).toNat = 4 + DisplayState.drawing.code.toNat ∧
    (7#3).toNat = 4 + DisplayState.other.code.toNat := by decide

/-- A stray operand, a missing address, the smallest address out of range, and a line that stands for a command. -/
theorem witness_ScriptLinesAssembleExactlyWhenWellFormed :
    ((ScriptLine.mk .frame (some 0)).mnemonic ≠ .addBreakpoint ∧ (ScriptLine.mk .frame (some 0)).operand ≠ none) ∧
    ((ScriptLine.mk .addBreakpoint none).mnemonic = .addBreakpoint ∧ (ScriptLine.mk .addBreakpoint none).operand = none) ∧
    ((ScriptLine.mk .addBreakpoint (some 0x100000000)).operand = some 0x100000000 ∧ 2 ^ 32 ≤ 0x100000000) ∧
    assembleLine 32 (.mk .addBreakpoint (some 0xFFFFFFFF)) = some (.addBreakpoint 0xFFFFFFFF) := by decide

/-! Reset, the caller, and after a fault. -/

theorem witness_StepRunsTheDecodedCommand :
    (({ State.reset with caller := [.command 0x100000000, .reset] } : State).phase = .idle ∧
      ({ State.reset with caller := [.command 0x100000000, .reset] } : State).caller = .command 0x100000000 :: [.reset]) ∧
    (decode 32 0x2FFFFFFFF#34).WellFormed State.reset.build.addrW :=
  ⟨⟨rfl, rfl⟩, show 0xFFFFFFFF < 2 ^ 32 by decide⟩

theorem witness_CallerActionsBetweenCommands :
    (faulted [.reset]).phase = .idle ∧ (faulted [.reset]).caller = .reset :: [] ∧
    (faulted [.setWorld (cpu 0 4) [(3, 1)] (io .halted .other 0 0 0)]).caller =
      .setWorld (cpu 0 4) [(3, 1)] (io .halted .other 0 0 0) :: [] ∧ (faulted []).caller = [] :=
  ⟨rfl, rfl, rfl, rfl⟩

/-- A faulted state that keeps the invariant, with a next state, once with a command and once with a reset ahead. -/
theorem witness_EveryCommandIsRefusedAfterAFault :
    (faulted [.command 0]).Inv ∧ (faulted [.command 0]).fault = true ∧ (faulted [.command 0]).resetsNext = false ∧
    step (faulted [.command 0]) = .next (after (step (faulted [.command 0]))) ∧
    (faulted [.reset]).Inv ∧ (faulted [.reset]).resetsNext = true ∧
    step (faulted [.reset]) = .next (after (step (faulted [.reset]))) :=
  ⟨state_inv _ rfl (by decide) rfl (by decide) (by decide) (by decide) rfl (fun _ => rfl), rfl, by decide, rfl,
    state_inv _ rfl (by decide) rfl (by decide) (by decide) (by decide) rfl (fun _ => rfl), by decide, rfl⟩

/-- A step that sets `FAULT` (the two other clauses have the states above). -/
theorem witness_FaultLatchIsSetByAFaultAndClearedByReset :
    (inFrame .f2 v11).Inv ∧ step (inFrame .f2 v11) = .next (after (step (inFrame .f2 v11))) ∧
    (inFrame .f2 v11).fault = false ∧ (after (step (inFrame .f2 v11))).fault = true :=
  ⟨state_inv _ rfl (by decide) rfl (by decide) (by decide) (by decide) rfl (fun h => by cases h), rfl, rfl, by decide⟩

/-! `STEP`. -/

/-- The entry of V9 with an `IO.set_running` that returns without effect (U5): the seventh shape. -/
def v9NotWoken : State :=
  peripherals (entryLeaving .halted (dma (state (cpu 200 0x08000010) (io .halted .drawing 0 8 8)) false 0
      (io .halted .drawing 0 8 8)) (cpu 202 0x18) (io .halted .drawing 0 8 8))
    0 (io .halted .drawing 0 8 8) 0 (io .halted .drawing 0 8 8) none

theorem witness_StepTraceHasExactlyOneShape :
    (v9.fault = false ∧ v9.begin.bodyReturns = true ∧ v9.begin.bodyWakes = true) ∧
    (v9NotWoken.fault = false ∧ v9NotWoken.begin.bodyReturns = true ∧ v9NotWoken.begin.services = true ∧ v9NotWoken.begin.idles = true) := by decide

theorem witness_StepTakenByDmaLeavesTheCpuAlone : v7.fault = false ∧ v7.begin.bodyReturns = true ∧ v7.begin.dmaTakes = true := by
  decide

theorem witness_StepExecutesOneInstruction :
    (v1.fault = false ∧ v1.begin.bodyReturns = true ∧ v1.begin.executes = true ∧ v1.begin.atCpuStep.cpuStepAnswer.result = .ok ∧
      v1.begin.services = false) ∧
    (v9.begin.bodyReturns = true ∧ v9.begin.executes = true ∧ v9.begin.atCpuStep.cpuStepAnswer.result = .ok ∧ v9.begin.services = true) := by decide

theorem witness_StepServicesInterruptWakesAndExecutes :
    v9.fault = false ∧ v9.begin.bodyReturns = true ∧ v9.begin.services = true ∧ v9.begin.bodyWakes = true ∧
    v9.begin.atCpuStep.cpuStepAnswer.result = .ok := by decide

theorem witness_StepOfAHaltedMachineIsAnIdleTick :
    (v8.fault = false ∧ v8.begin.bodyReturns = true ∧ v8.begin.idles = true ∧ v8.begin.bodyWakes = true ∧
      v8.begin.services = false) ∧
    (v9NotWoken.begin.bodyReturns = true ∧ v9NotWoken.begin.idles = true ∧ v9NotWoken.begin.services = true) := by decide

theorem witness_StepStopsAtAFatalFault : 
    v11.fault = false ∧ v11.begin.bodyReturns = true ∧ v11.begin.faultsWith 7 :=
  ⟨rfl, by decide, by decide, by decide⟩

theorem witness_ElapsedIsZeroDeltaOrOne :
    (v1.fault = false ∧ exec .step v1 = .next (after (exec .step v1)) ∧ (after (exec .step v1)).status = some .ok ∧
      v1.cycles ≤ (after (exec .step v1)).cycles) ∧
    (after (exec .step v7)).status = some .ok ∧ (after (exec .step v8)).status = some .ok :=
  ⟨⟨rfl, rfl, by decide, by decide⟩, by decide, by decide⟩

/-- An edge to `VBlank`, one to `HBlank`, and none. -/
theorem witness_DisplayEdgeDecidesPresentationAndNotification :
    (v7.fault = false ∧ exec .step v7 = .next (after (exec .step v7)) ∧ (after (exec .step v7)).status = some .ok ∧
      (after (exec .step v7)).trans = some .vblank) ∧
    (after (exec .step v9)).trans = some .hblank ∧ (after (exec .step v1)).trans = none :=
  ⟨⟨rfl, rfl, by decide, by decide⟩, by decide, by decide⟩

theorem witness_RequestsAreMergedAtTheEndOfTheStep :
    (v7.fault = false ∧ v7.begin.bodyReturns = true ∧ v7.begin.completes = true ∧ v7.begin.bodyMerges = true) ∧
    (after (exec .step v1)).irqAcc = 0 ∧ v1.begin.bodyMerges = true := by decide

theorem witness_PeripheralsAdvanceOncePerCompletedStep :
    (v8.fault = false ∧ exec .step v8 = .next (after (exec .step v8)) ∧ (after (exec .step v8)).status = some .ok) ∧
    (v11.fault = false ∧ exec .step v11 = .next (after (exec .step v11)) ∧
      (after (exec .step v11)).status = some .fault) :=
  ⟨⟨rfl, rfl, by decide⟩, rfl, rfl, by decide⟩

theorem witness_StepIssuesFiveToFourteenMicroOperations :
    v11.fault = false ∧ v11.begin.bodyReturns = true ∧ (faulted []).fault = true := by decide

/-- The timer's bit of V8 is enabled, it is raised in a step the DMA Engine declined, and the query after that step is
answered as R192 says. -/
def v8ThenDeclined : State := dma v8 false 0 (io .halted .drawing 0 8 8)

theorem witness_RequestIsNotSeenInTheStepThatRaisesIt :
    v8ThenDeclined.fault = false ∧ v8ThenDeclined.begin.bodyReturns = true ∧ v8ThenDeclined.begin.dmaTakes = false ∧
    v8ThenDeclined.begin.atQuery.pendingContract = true ∧ (after (exec .step v8ThenDeclined)).status = some .ok ∧
    v8ThenDeclined.begin.bodyMerges = true ∧
    (after (exec .step v8ThenDeclined)).irqAcc &&& (after (exec .step v8ThenDeclined)).world.io.ic.enabled ≠ 0 ∧
    (after (exec .step v8ThenDeclined)).pendingContract = true := by decide

/-- V8, then a step the DMA Engine takes, then one it declines and that serves the request; the devices leave the Interrupt Controller alone. -/
def latency0 : State :=
  let taken := peripherals (dma v8 true 0 (io .halted .drawing 0 8 8)) 0 (io .halted .drawing 0 8 8) 0
    (io .halted .drawing 0 8 8) none
  let served := entry (dma taken false 0 (io .halted .drawing 0 8 8)) (cpu 1002 0x18) (io .halted .drawing 0 8 8)
  peripherals (instr served (cpu 1003 0x1C) (io .running .drawing 0 0 8) .ok) 0 (io .running .drawing 0 0 8) 0
    (io .running .drawing 0 0 8) none

def latency1 : State := after (exec .step latency0)
def latency2 : State := after (exec .step latency1)

theorem witness_RaisedRequestIsServicedInTheNextDeclinedStep :
    (latency0.fault = false ∧ latency0.begin.bodyMerges = true ∧ exec .step latency0 = .next latency1 ∧
      latency1.status = some .ok ∧ latency1.irqAcc &&& latency1.world.io.ic.enabled ≠ 0) ∧
    (TakenRun latency1 latency1 ∧ latency1.begin.dmaTakes = true) ∧
    (TakenRun latency1 latency2 ∧ latency2.begin.dmaTakes = false ∧
      latency2.begin.atDma.dmaAnswer.io.ic = latency2.world.io.ic ∧
      latency2.begin.atQuery.pendingContract = true ∧ latency2.begin.bodyReturns = true) :=
  ⟨⟨rfl, by decide, rfl, by decide, by decide⟩, ⟨.start _, by decide⟩,
    .more (.start _) (by decide) (by decide) (by decide) rfl (by decide), by decide, by decide, by decide, by decide⟩

/-- The DMA Engine stores at 16; address 17 is outside the stored bytes, and no CPU operation is called. -/
theorem witness_StepFrame :
    v7.fault = false ∧ v7.begin.services = false ∧ v7.begin.executes = false ∧
    (after (exec .step v7)).status = some .ok ∧ v7.begin.bodyReturns = true ∧ v7.begin.bodyWrites = [(16, 7)] ∧
    (after (exec .step v7)).status ≠ some .fault ∧ ∀ c ∈ v7.begin.bodyWrites, c.1 ≠ 17 := by decide

theorem witness_StepNeverDecreasesTheCycleCounter :
    StepCalls v9 (after (exec .step v9)) ∧ v9.begin.counterContract = true ∧ v9.begin.bodyWakes = true ∧
    (after (exec .step v9)).status = some .ok :=
  ⟨.more (.start v9) (by decide) rfl, by decide, by decide, by decide⟩

/-- V6: the DMA Engine takes the cycle and raises 0x0100. -/
def v6 : State :=
  peripherals (dma (state (cpu 300 0x08000000) (io .running .drawing 0 0 0)) true 0x0100 (io .running .drawing 0 0 0))
    0x0100 (io .running .drawing 0 0 0) 0x0100 (io .running .drawing 0 0 0) none

theorem witness_RaisedBitsReachThePendingMask :
    v6.fault = false ∧ v6.begin.maskContract = true ∧ v6.begin.bodyMerges = true ∧ exec .step v6 = .next (after (exec .step v6)) ∧
    (after (exec .step v6)).status = some .ok := ⟨rfl, by decide, by decide, rfl, by decide⟩

/-- An idle step: one cycle handed out, the counter as it was. -/
theorem witness_PeripheralCyclesAreDeltaPlusIdleSteps :
    StepsRun v8 (0 + (after (exec .step v8)).elapsed)
      (0 + if MicroOp.ioHaltRunning false ∈ (after (exec .step v8)).trace then 1 else 0) (after (exec .step v8)) :=
  .more (.start v8) (by decide) (by decide) rfl (by decide)

/-! `FRAME`. -/

theorem witness_FrameSamplesTheInputOnceAndEntersItsLoop :
    fv1.fault = false ∧ fv1.begin.inputReturns = true ∧ fv1.begin.inputWritten = true ∧ (inFrame .f3 v1).phase ≠ .idle := by
  decide

/-- The four cases: F2 in `VBlank`, F3 outside it, a body that completes, a body that faults. -/
theorem witness_FrameLoopTestsTheLevelAndRunsOneBody :
    ((atLevel .f2 .vblank).inLoop = true ∧ (atLevel .f2 .vblank).loopReturns = true ∧ (atLevel .f2 .vblank).phase = .f2 ∧ (atLevel .f2 .vblank).displayLevel = .vblank) ∧
    ((atLevel .f3 .other).loopReturns = true ∧ (atLevel .f3 .other).phase = .f3 ∧ (atLevel .f3 .other).displayLevel ≠ .vblank) ∧
    ((inFrame .f2 v7).loopsOn = true ∧ (inFrame .f2 v7).loopReturns = true ∧
      (inFrame .f2 v7).readLevel.completes = true) ∧
    ((inFrame .f2 v11).loopsOn = true ∧ (inFrame .f2 v11).loopReturns = true ∧
      (inFrame .f2 v11).readLevel.faultsWith 7) :=
  ⟨by decide, by decide, by decide, by decide, by decide, by decide, by decide⟩

theorem witness_FrameEndsOutsideVblankOrInAFault :
    ((atLevel .f3 .hblank).phase ≠ .idle ∧ (atLevel .f3 .hblank).fault = false ∧
      (after (step (atLevel .f3 .hblank))).phase = .idle ∧ (after (step (atLevel .f3 .hblank))).status = some .ok) ∧
    ((inFrame .f2 v11).phase ≠ .idle ∧ (inFrame .f2 v11).fault = false ∧ (after (step (inFrame .f2 v11))).phase = .idle ∧
      (after (step (inFrame .f2 v11))).status = some .fault) := by decide

/-- A whole `FRAME` of two bodies, the DMA Engine taking both cycles: into `VBlank`, and out of it. -/
def frame0 : State :=
  let s := state (cpu 0 0) (io .running .drawing 0 0 0)
  let s := { s with env := { s.env with polledKeys := [0], keyInputEffect := [io .running .drawing 0 0 0] } }
  let s := peripherals (dma s true 0 (io .running .drawing 0 0 0)) 0 (io .running .drawing 0 0 0) 0
    (io .running .vblank 1 0 0) (some .vblank)
  let s := { s with env := { s.env with dmaNotifyVblank := [Config.resetWorld.io.dma] } }
  peripherals (dma s true 0 (io .running .vblank 1 0 0)) 0 (io .running .vblank 1 0 0) 0
    (io .running .drawing 1 0 0) (some .drawing)

def frame1 : State := after (exec .frame frame0)
def frame2 : State := after (step frame1)
def frame3 : State := after (step frame2)
def frame4 : State := after (step frame3)
def frame5 : State := after (step frame4)

theorem witness_CompletedFramePresentsExactlyOnceFromOutsideVblank :
    frame0.fault = false ∧ exec .frame frame0 = .next frame1 ∧ frame0.begin.inputKeepsLevel = true ∧
    FrameRun frame1 frame5 ∧ (frame1.phase = .f2 ∧ frame1.displayLevel ≠ .vblank) ∧ frame4.phase = .f3 ∧
    frame5.phase = .idle ∧ frame5.status = some .ok := by
  refine ⟨rfl, rfl, by decide, ?_, by decide, by decide, by decide, by decide⟩
  have h2 : FrameRun frame1 frame2 := .more (.start _) (by decide) (by decide) rfl
  have h3 : FrameRun frame1 frame3 := .more h2 (by decide) (by decide) rfl
  have h4 : FrameRun frame1 frame4 := .more h3 (by decide) (by decide) rfl
  exact .more h4 (by decide) (by decide) rfl

/-- The same `FRAME`: one test outside `VBlank` in F2, one in it; one test in `VBlank` in F3, one outside it. -/
def frameStates : Nat → State
  | 0 => frame1
  | 1 => frame2
  | 2 => frame3
  | 3 => frame4
  | _ => frame5

theorem witness_FrameRespondsWhenTheLevelHasEnteredAndLeftVblank :
    frame0.fault = false ∧ frame0.begin.inputReturns = true ∧ exec .frame frame0 = .next (frameStates 0) ∧
    (∀ k ≤ 1 + 1 + 1, step (frameStates k) = .next (frameStates (k + 1)) ∧ (frameStates k).fault = false ∧
      (frameStates k).loopReturns = true) ∧
    (∀ k < 1, (frameStates k).displayLevel ≠ .vblank) ∧ (frameStates 1).displayLevel = .vblank ∧
    (∀ k, 1 < k → k ≤ 1 + 1 → (frameStates k).displayLevel = .vblank) ∧
    (frameStates (1 + 1 + 1)).displayLevel ≠ .vblank := by
  refine ⟨rfl, by decide, rfl, fun k hk => ?_, fun k hk => ?_, by decide, fun k h1 h2 => ?_, by decide⟩
  · obtain rfl | rfl | rfl | rfl : k = 0 ∨ k = 1 ∨ k = 2 ∨ k = 3 := by omega
    · exact ⟨rfl, by decide⟩
    · exact ⟨rfl, by decide⟩
    · exact ⟨rfl, by decide⟩
    · exact ⟨rfl, by decide⟩
  · obtain rfl : k = 0 := by omega
    decide
  · obtain rfl : k = 2 := by omega
    decide

/-- One body of F2 after which the level is still outside `VBlank`. -/
theorem witness_FrameCanRunForAnyNumberOfStepsWithoutResponse :
    (inFrame .f2 v6).phase = .f2 ∧ Sys2Proof.core.run 1 (inFrame .f2 v6) = .next (after (step (inFrame .f2 v6))) ∧
    (∀ k < 1, ∀ v : State, Sys2Proof.core.run k (inFrame .f2 v6) = .next v →
      v.displayLevel ≠ .vblank ∧ v.loopReturns = true) ∧
    (∀ k ≤ 1, ∀ v : State, Sys2Proof.core.run k (inFrame .f2 v6) = .next v → v.fault = false) := by
  refine ⟨rfl, rfl, fun k hk v hv => ?_, fun k hk v hv => ?_⟩
  · obtain rfl : k = 0 := by omega
    cases hv
    decide
  · obtain rfl | rfl : k = 0 ∨ k = 1 := by omega
    · cases hv; rfl
    · have h : Sys2Proof.core.run 1 (inFrame .f2 v6) = .next (after (step (inFrame .f2 v6))) := rfl
      rw [h] at hv
      cases hv
      decide

/-- A body that does not touch the CPU (the DMA Engine takes the cycle), and a test without a body. -/
theorem witness_FrameLoopFrame :
    ((inFrame .f2 v7).inLoop = true ∧ (inFrame .f2 v7).loopsOn = true ∧ (inFrame .f2 v7).loopReturns = true ∧ (inFrame .f2 v7).readLevel.services = false ∧
      (inFrame .f2 v7).readLevel.executes = false ∧ ∀ c ∈ (inFrame .f2 v7).readLevel.bodyWrites, c.1 ≠ 17) ∧
    (inFrame .f3 v7).loopsOn = false := by decide

/-! The breakpoint commands. -/

theorem witness_AddBreakpointAppendsAnswersDuplicateOrFull :
    (bvFull.fault = false ∧ bvFull.build.bpMax = some bvFull.bp.length ∧ 0x10 ∈ bvFull.bp ∧ 0x30 ∉ bvFull.bp) ∧
    (faulted []).fault = true := by decide

/-- The largest address on a set without capacity limit. -/
theorem witness_AnsweredPositionIsWhereTheAddressStands :
    (faulted []).fault = true ∧ State.Inv { State.reset with bp := [0, 7] } ∧
    (Instr.addBreakpoint 0xFFFFFFFF).WellFormed State.reset.build.addrW ∧
    (after (exec (.addBreakpoint 0xFFFFFFFF) { State.reset with bp := [0, 7] })).status = some .okData :=
  ⟨rfl, state_inv _ rfl (by decide) rfl (by decide) (by decide) (by decide) rfl (fun h => by cases h), by decide⟩

theorem witness_CheckBreakpointAnswersTheNextAddressIfPresent :
    (bvState 0).fault = false ∧ (bvState 0).begin.returns .cpuNextPc = true ∧ (bvState 0).nextPc ∈ (bvState 0).bp ∧ (bvState 1).nextPc ∉ (bvState 1).bp ∧
    (faulted []).fault = true := by decide

theorem witness_BreakpointAddedTwiceThenChecked :
    ((bvState 1).fault = false ∧ (bvState 1).begin.returns .cpuNextPc = true ∧ 1 ∉ (bvState 1).bp ∧ (bvState 1).build.bpMax = none ∧
      (bvState 1).nextPc = 1) ∧
    (1 ∉ (bvState 2).bp ∧ (bvState 2).nextPc ≠ 1 ∧ (bvState 2).nextPc ∉ (bvState 2).bp) := by decide

theorem witness_BreakpointSetOnlyGrowsUntilReset :
    (faulted [.command 0]).resetsNext = false ∧
    step (faulted [.command 0]) = .next (after (step (faulted [.command 0]))) := ⟨by decide, rfl⟩

/-! The invariant, and the micro-operations. -/

/-- A state other than the one after reset, with a command in progress, bytes in memory and two breakpoints. -/
theorem witness_EveryStepKeepsTheInvariant :
    let s : State := { inFrame .f2 v7 with
      bp := [3, 4], world := { v7.world with mem := [(1, 0), (5, 9)] } }
    s.Inv ∧ step s = .next (after (step s)) :=
  ⟨state_inv _ (by decide) (by decide) rfl (by decide) (by decide) (by decide) rfl (fun h => by cases h), rfl⟩

/-- The merge of V7 and of V1 (with `irq_acc = 0`), and the wake of V9. -/
theorem witness_MicroOperationsKeepTheirFrames :
    v7.begin.atMerge.mergeContract = true ∧
    (v1.begin.atMerge.mergeContract = true ∧ v1.begin.atMerge.irqAcc = 0) ∧
    v9.begin.atWake.setRunningContract = true := by decide

/-- Two states that differ in the past and the transient registers; and the same in the middle of a `FRAME`. -/
theorem witness_EqualWorldsGiveEqualTraces :
    (State.reset.deterministic = true ∧
      ({ State.reset with elapsed := 7, trace := [.ioSetRunning], presented := [3], took := true } : State).deterministic =
        true ∧
      State.SameInputs State.reset { State.reset with elapsed := 7, trace := [.ioSetRunning], presented := [3], took := true }) ∧
    (State.SameBehaviour (inFrame .f2 State.reset) (inFrame .f2 { State.reset with elapsed := 7, presented := [3] }) ∧
      (inFrame .f2 State.reset).inLoop = true) :=
  ⟨⟨by decide, by decide, rfl, rfl, rfl, rfl, rfl, rfl, rfl⟩, ⟨⟨rfl, rfl, rfl, rfl, rfl, rfl, rfl⟩, rfl, rfl, rfl⟩,
    by decide⟩

/-! A call that does not return. -/

/-- The first call of a `STEP`, its last one, and the second one of F1; and commands whose calls all return. -/
theorem witness_CommandIsStuckAtTheFirstCallThatDoesNotReturn :
    ((hangs 0 v7).fault = false ∧ (hangs 0 v7).begin.phaseS1.returns .cpuCycles = false ∧
      (hangs 0 v7).begin.bodyCalls =
        [] ++ ((hangs 0 v7).begin.phaseS1, .cpuCycles) :: (hangs 0 v7).begin.bodyCalls.tail) ∧
    (allReturn ((hangs 7 v7).begin.bodyCalls.take 7) = true ∧
      (hangs 7 v7).begin.atMerge.returns (.icMergeRequests 1) = false ∧
      (hangs 7 v7).begin.bodyCalls =
        (hangs 7 v7).begin.bodyCalls.take 7 ++ ((hangs 7 v7).begin.atMerge, .icMergeRequests 1) :: []) ∧
    (allReturn [((hangs 1 fv1).begin, .backendPollInput)] = true ∧
      (hangs 1 fv1).begin.pollInput.returns (.ioSetKeyinput 0x3FF) = false ∧
      (hangs 1 fv1).begin.inputCalls = [((hangs 1 fv1).begin, .backendPollInput)] ++
        ((hangs 1 fv1).begin.pollInput, .ioSetKeyinput 0x3FF) :: []) ∧
    (hangs 0 (bvState 0)).begin.returns .cpuNextPc = false ∧
    (v1.commandReturns .step = true ∧ fv1.commandReturns .frame = true ∧
      (bvState 0).commandReturns .checkBreakpoint = true) :=
  ⟨⟨rfl, by decide, rfl⟩, ⟨by decide, by decide, rfl⟩, ⟨by decide, by decide, rfl⟩, by decide, by decide⟩

/-- The read of the level, the first call of a body in the loop, a loop test whose calls return, and a stuck command. -/
theorem witness_FrameIsStuckAtTheFirstCallThatDoesNotReturn :
    ((inFrame .f2 (hangs 0 v7)).inLoop = true ∧ (inFrame .f2 (hangs 0 v7)).returns .displayState = false) ∧
    ((inFrame .f2 (hangs 1 v7)).loopsOn = true ∧ (inFrame .f2 (hangs 1 v7)).returns .displayState = true ∧
      (inFrame .f2 (hangs 1 v7)).readLevel.phaseS1.returns .cpuCycles = false ∧
      (inFrame .f2 (hangs 1 v7)).readLevel.bodyCalls = [] ++
        ((inFrame .f2 (hangs 1 v7)).readLevel.phaseS1, .cpuCycles) :: (inFrame .f2 (hangs 1 v7)).readLevel.bodyCalls.tail) ∧
    (inFrame .f2 v7).loopReturns = true ∧
    ((after (exec .step (hangs 7 v1))).phase = .stuck (.displayAdvance 3 0) ∧ (State.reset.hang .cpuCycles).Inv) :=
  ⟨by decide, ⟨by decide, by decide, by decide, rfl⟩, by decide, by decide,
    state_inv _ rfl (by decide) rfl (by decide) (by decide) (by decide) rfl (fun h => by cases h)⟩

end Sys2Proof.Tests
end

section
/-!
SUPPORT. The state after reset, field by field (spec/10_state.md R30), and the statement about it.
-/

namespace Sys2Proof.Machine

/-! ### The fields of the state after reset -/

@[simp] theorem State.resetWith_bp (b : BuildParameters) : (State.resetWith b).bp = [] := rfl
@[simp] theorem State.resetWith_fault (b : BuildParameters) : (State.resetWith b).fault = false := rfl
@[simp] theorem State.resetWith_phase (b : BuildParameters) : (State.resetWith b).phase = .idle := rfl
@[simp] theorem State.resetWith_world (b : BuildParameters) : (State.resetWith b).world = b.w0 := rfl
@[simp] theorem State.resetWith_build (b : BuildParameters) : (State.resetWith b).build = b := rfl

/-- `State.reset` is the reset of its own build: what holds of every `State.resetWith` holds of it. -/
theorem State.reset_eq_resetWith_build : State.reset = State.resetWith State.reset.build := rfl

@[simp] theorem State.reset_build_w0 : State.reset.build.w0 = Config.resetWorld := rfl

theorem State.reset_world : State.reset.world = Config.resetWorld := by
  rw [State.reset_eq_resetWith_build, State.resetWith_world, State.reset_build_w0]

@[simp] theorem resetWorld_display_level : Config.resetWorld.io.display.level = .drawing := rfl

/-- The one constraint of R30 on the initial world, met by the suggested one. -/
theorem State.reset_display_level_ne_vblank : State.reset.world.io.display.level ≠ .vblank := by
  rw [State.reset_world, resetWorld_display_level]
  decide

/-- Settles O7: the first clause from the fields of `State.resetWith`, for every build; the second because `State.reset`
is the reset of its own build, whose initial world has the display `Drawing`. -/
theorem resetLeavesSchedulerEmptyAndOperational : Obligations.ResetLeavesSchedulerEmptyAndOperational := by
  unfold Obligations.ResetLeavesSchedulerEmptyAndOperational
  refine ⟨fun b => ?fields, State.reset_eq_resetWith_build, State.reset_display_level_ne_vblank⟩
  case fields =>
    exact ⟨State.resetWith_bp b, State.resetWith_fault b, State.resetWith_phase b, State.resetWith_world b⟩

end Sys2Proof.Machine
end

section
/-!
SUPPORT. The opcode map, an equation per `op`, and the decoder in terms of the number a word is
(spec/30_encoding.md R61 to R63), with the statement about it.
-/

namespace Sys2Proof

/-! ### The opcode map -/

@[simp] theorem commandOf_zero (arg : Addr) : commandOf 0b00#2 arg = .step := rfl
@[simp] theorem commandOf_one (arg : Addr) : commandOf 0b01#2 arg = .frame := rfl
@[simp] theorem commandOf_two (arg : Addr) : commandOf 0b10#2 arg = .addBreakpoint arg := rfl
@[simp] theorem commandOf_three (arg : Addr) : commandOf 0b11#2 arg = .checkBreakpoint := rfl

/-! ### The decoder on the number a word is -/

theorem opField_eq_iff (aw : Nat) (w : CmdWord aw) (op : BitVec 2) :
    opField aw w = op ↔ w.toNat / 2 ^ aw = op.toNat := by
  rw [← BitVec.toNat_inj, opField_toNat]

/-- The number above the low `aw` bits picks the row of the opcode map, and the low bits are its operand. -/
theorem decode_eq_commandOf {aw : Nat} {w : CmdWord aw} {op : BitVec 2} (h : w.toNat / 2 ^ aw = op.toNat) :
    decode aw w = commandOf op (w.toNat % 2 ^ aw) := by
  rw [decode, (opField_eq_iff aw w op).mpr h, argField_toNat]

end Sys2Proof

namespace Sys2Proof.Machine

/-- Settles O2: each value of `op` gives its row of the opcode map, by `decode_eq_commandOf`. -/
theorem everyWordDecodesByItsOpcode : Obligations.EveryWordDecodesByItsOpcode := by
  unfold Obligations.EveryWordDecodesByItsOpcode
  intro aw w
  refine ⟨fun h => ?step, fun h => ?frame, fun h => ?addBreakpoint, fun h => ?checkBreakpoint⟩
  case step => rw [decode_eq_commandOf (op := 0b00#2) h, commandOf_zero]
  case frame => rw [decode_eq_commandOf (op := 0b01#2) h, commandOf_one]
  case addBreakpoint => rw [decode_eq_commandOf (op := 0b10#2) h, commandOf_two]
  case checkBreakpoint => rw [decode_eq_commandOf (op := 0b11#2) h, commandOf_three]

end Sys2Proof.Machine
end

section
/-!
SUPPORT. The ways a `STEP` ends, each reached from the premise that selects it, with what it leaves in `elapsed`, in the CPU
and in the trace; and the statements of spec/40_step.md R105, R108, R109, R110, R112 and R114 to R116.
-/

namespace Sys2Proof.Machine

/-! ### Instructions in a trace shape -/

/-- The number of `CPU.step` calls in a trace of the shape. -/
def Shape.instructions : Shape → Nat
  | .dmaTook => 0
  | .run => 1
  | .idle => 0
  | .irqRun => 1
  | .fault => 1
  | .irqFault => 1
  | .irqIdle => 0

theorem TailTrace.countOps_cpuStep {e : Nat} {i : IrqMask} {tr : List MicroOp} (h : TailTrace e i tr) :
    countOps 3 tr = 0 := by
  obtain ⟨j, k, trans, edge, hedge, rfl⟩ := h
  cases hedge <;> rfl

theorem Shape.Trace.countOps_cpuStep {c : Nat} {tr : List MicroOp} {sh : Shape} (h : sh.Trace c tr) :
    countOps 3 tr = sh.instructions := by
  cases sh with
  | dmaTook | idle | irqIdle =>
    obtain ⟨i, tail, ht, rfl⟩ := h
    rw [countOps_append, ht.countOps_cpuStep]
    rfl
  | run | irqRun =>
    obtain ⟨i, c', tail, ht, rfl⟩ := h
    rw [countOps_append, ht.countOps_cpuStep]
    rfl
  | fault | irqFault =>
    obtain ⟨i, info, rfl⟩ := h
    rfl

theorem elapsedSince_of_le {start now : Nat} (h : start ≤ now) : elapsedSince start now = now - start := if_pos h

namespace State

variable (s : State)

/-! ### Which way a body goes -/

theorem completes_of_not_executes (h : s.executes = false) : s.completes = true := by simp [State.completes, h]

theorem completes_of_ok (h : s.atCpuStep.cpuStepAnswer.result = .ok) : s.completes = true := by
  simp [State.completes, h]

theorem executes_of_dmaTakes (h : s.dmaTakes = true) : s.executes = false := by simp [State.executes, h]

theorem executes_of_idles (h : s.idles = true) : s.executes = false := by
  simp [State.executes, (idles_spec s h).2]

theorem atTimer_of_dmaTakes (h : s.dmaTakes = true) : s.atTimer = s.atQuery.dmaTook := by simp [State.atTimer, h]

theorem atTimer_of_executes (h : s.executes = true) : s.atTimer = s.executed := by
  simp [State.atTimer, h, executes_dmaTakes s h]

theorem atTimer_of_idles (h : s.idles = true) : s.atTimer = s.idled := by
  simp [State.atTimer, (idles_spec s h).1, executes_of_idles s h]

theorem executed_irqAcc : s.executed.irqAcc = s.atDma.dmaAnswer.irqAcc := by
  obtain ⟨h, -⟩ := atHaltTest_keeps s
  simpa only [State.executed, State.atCpuStep, countElapsed_irqAcc, cpuStep_irqAcc, log_irqAcc] using h

theorem idled_irqAcc : s.idled.irqAcc = s.atDma.dmaAnswer.irqAcc := by
  obtain ⟨h, -⟩ := atHaltTest_keeps s
  simpa only [State.idled, idleTick_irqAcc, log_irqAcc] using h

/-! ### What a completed body leaves -/

@[simp] theorem bodyDone_elapsed : s.bodyDone.elapsed = s.atTimer.elapsed := tailDone_elapsed s.atTimer
@[simp] theorem bodyDone_took : s.bodyDone.took = s.atTimer.took := tailDone_took s.atTimer
@[simp] theorem bodyDone_cpu : s.bodyDone.world.cpu = s.atTimer.world.cpu := tailDone_cpu s.atTimer
@[simp] theorem bodyDone_cycles : s.bodyDone.cycles = s.atTimer.cycles := tailDone_cycles s.atTimer

/-- After S4 the CPU is the one the entry routine left, or, where none ran, the one before the body. -/
theorem atHaltTest_cpu (h : s.dmaTakes = false) : s.atHaltTest.world.cpu =
    if s.services then s.atService.cpuServiceAnswer.cpu else s.world.cpu := by
  rw [← pending_eq_services s h]
  cases hp : s.atQuery.pending with
  | true => rw [atHaltTest_pending s hp]; rfl
  | false => rw [atHaltTest_quiet s hp]; rfl

theorem bodyDone_elapsed_of_dmaTakes (h : s.dmaTakes = true) : s.bodyDone.elapsed = 0 := by
  rw [bodyDone_elapsed, atTimer_of_dmaTakes s h, dmaTook_elapsed]

theorem bodyDone_elapsed_of_executes (h : s.executes = true) :
    s.bodyDone.elapsed = elapsedSince s.cycles s.bodyDone.cycles := by
  rw [bodyDone_elapsed, bodyDone_cycles, atTimer_of_executes s h, executed_elapsed]

theorem bodyDone_elapsed_of_idles (h : s.idles = true) : s.bodyDone.elapsed = 1 := by
  rw [bodyDone_elapsed, atTimer_of_idles s h, State.idled, idleTick_elapsed]

/-- S6 to S8 in the trace: the two peripherals get the same count, then come the notifications of the returned transition
and the merge. -/
theorem bodyDone_trace : s.bodyDone.trace = s.atTimer.trace ++
    ([MicroOp.timerAdvance s.bodyDone.elapsed s.atTimer.irqAcc s.atTimer.timerAnswer.irqAcc,
      MicroOp.displayAdvance s.bodyDone.elapsed s.atTimer.timerAnswer.irqAcc s.bodyDone.irqAcc s.bodyDone.trans]
      ++ edgeOps s.bodyDone.trans s.bodyDone.framebuffer ++ [MicroOp.icMergeRequests s.bodyDone.irqAcc]) := by
  rw [bodyDone_elapsed]
  exact tailDone_trace s.atTimer

theorem bodyDone_trace_advances : ∃ i j k,
    [MicroOp.timerAdvance s.bodyDone.elapsed i j, MicroOp.displayAdvance s.bodyDone.elapsed j k s.bodyDone.trans] <:+:
      s.bodyDone.trace := by
  refine ⟨s.atTimer.irqAcc, s.atTimer.timerAnswer.irqAcc, s.bodyDone.irqAcc, s.atTimer.trace,
    edgeOps s.bodyDone.trans s.bodyDone.framebuffer ++ [MicroOp.icMergeRequests s.bodyDone.irqAcc], ?_⟩
  simp only [bodyDone_trace, List.append_assoc]

theorem bodyDone_trace_edge : ∃ j, [MicroOp.displayAdvance s.bodyDone.elapsed j s.bodyDone.irqAcc s.bodyDone.trans] ++
    edgeOps s.bodyDone.trans s.bodyDone.framebuffer ++ [MicroOp.icMergeRequests s.bodyDone.irqAcc] <:+ s.bodyDone.trace := by
  refine ⟨s.atTimer.timerAnswer.irqAcc, s.atTimer.trace ++
    [MicroOp.timerAdvance s.bodyDone.elapsed s.atTimer.irqAcc s.atTimer.timerAnswer.irqAcc], ?_⟩
  simp only [bodyDone_trace, List.append_assoc, List.cons_append, List.nil_append]

theorem bodyDone_presented : s.bodyDone.presented =
    s.presented ++ (if s.bodyDone.trans = some .vblank then [s.bodyDone.framebuffer] else []) := by
  rw [← atTimer_presented s]
  exact tailDone_presented s.atTimer

/-! ### The trace shape of a completed `STEP` (R120) -/

theorem shape_of_dmaTakes (h : s.begin.dmaTakes = true) : Shape.Trace s.cycles s.begin.bodyDone.trace .dmaTook := by
  obtain ⟨tail, ht, e⟩ := tailTrace_tailDone s.begin.atQuery.dmaTook
  rw [trace_dmaTook s h] at e
  rw [State.bodyDone, atTimer_of_dmaTakes _ h]
  exact ⟨_, tail, ht, e⟩

theorem shape_of_executes (h : s.begin.executes = true) (hok : s.begin.atCpuStep.cpuStepAnswer.result = .ok) :
    Shape.Trace s.cycles s.begin.bodyDone.trace (if s.begin.services then .irqRun else .run) := by
  obtain ⟨tail, ht, e⟩ := tailTrace_tailDone s.begin.executed
  rw [executed_elapsed, executed_irqAcc] at ht
  rw [trace_executed, trace_cpuStep s (executes_dmaTakes _ h), hok] at e
  rw [State.bodyDone, atTimer_of_executes _ h]
  cases hs : s.begin.services <;> rw [hs] at e <;> exact ⟨_, _, tail, ht, e⟩

theorem shape_of_idles (h : s.begin.idles = true) :
    Shape.Trace s.cycles s.begin.bodyDone.trace (if s.begin.services then .irqIdle else .idle) := by
  obtain ⟨tail, ht, e⟩ := tailTrace_tailDone s.begin.idled
  rw [idled_irqAcc] at ht
  rw [trace_idled s h] at e
  rw [State.bodyDone, atTimer_of_idles _ h]
  cases hs : s.begin.services <;> rw [hs] at e <;> exact ⟨_, tail, ht, e⟩

/-! ### What `STEP` answers, from the premise that selects it -/

theorem exec_step_of_completes (hf : s.fault = false) (hr : s.begin.bodyReturns = true)
    (hc : s.begin.completes = true) : exec .step s = .next (s.begin.bodyDone.respond .ok 0) := by
  rcases exec_step_ends s hf with ⟨-, -, e⟩ | ⟨info, -, hx, -⟩ | ⟨_, _, _, _, hn, -⟩
  · exact e
  · rw [completes_of_faultsWith _ hx] at hc; cases hc
  · rw [hr] at hn; cases hn

theorem faultsWith_unique {i j : FaultInfo} (hi : s.faultsWith i) (hj : s.faultsWith j) : i = j :=
  CpuResult.fault.inj (hi.2.symm.trans hj.2)

theorem exec_step_of_faultsWith {info : FaultInfo} (hf : s.fault = false) (hr : s.begin.bodyReturns = true)
    (hx : s.begin.faultsWith info) : exec .step s = .next (s.begin.atCpuStep.cpuStep.raiseFault info) := by
  rcases exec_step_ends s hf with ⟨-, hc, -⟩ | ⟨j, -, hj, e⟩ | ⟨_, _, _, _, hn, -⟩
  · rw [completes_of_faultsWith _ hx] at hc; cases hc
  · rw [faultsWith_unique _ hx hj]; exact e
  · rw [hr] at hn; cases hn

end State

open State

/-! ### The statements -/

/-- Settles O14: S4 and S5 are skipped, so S6 begins with `elapsed` 0 and the CPU as the step found it, and the tail keeps
both. -/
theorem stepTakenByDmaLeavesTheCpuAlone : Obligations.StepTakenByDmaLeavesTheCpuAlone := by
  unfold Obligations.StepTakenByDmaLeavesTheCpuAlone
  intro s hf hr hd
  have hx := executes_of_dmaTakes _ hd
  refine ⟨_, exec_step_of_completes s hf hr (completes_of_not_executes _ hx), rfl, ?took,
    bodyDone_elapsed_of_dmaTakes _ hd, ?cpu, shape_of_dmaTakes s hd⟩
  case took => rw [respond_took, bodyDone_took, atTimer_of_dmaTakes _ hd, dmaTook_took, atQuery_took, hd]
  case cpu => rw [respond_world, bodyDone_cpu, atTimer_of_dmaTakes _ hd]; rfl

/-- Settles O15: the body goes through `CPU.step` (`shape_of_executes`), whose CPU and counter the tail keeps. -/
theorem stepExecutesOneInstruction : Obligations.StepExecutesOneInstruction := by
  unfold Obligations.StepExecutesOneInstruction
  intro s hf hr hx hok
  have hshape := shape_of_executes s hx hok
  refine ⟨fun hs => ?entered, _, exec_step_of_completes s hf hr (completes_of_ok _ hok), rfl, ?one, ?cpu,
    bodyDone_elapsed_of_executes _ hx, hshape⟩
  case entered => exact (atHaltTest_cpu _ (executes_dmaTakes _ hx)).trans (if_pos hs)
  case one => exact hshape.countOps_cpuStep.trans (by cases s.begin.services <;> rfl)
  case cpu => rw [respond_world, bodyDone_cpu, atTimer_of_executes _ hx]; rfl

/-- Settles O17: S5 only sets `elapsed` to 1, so the CPU is the one S4 left; and a wake that keeps its contract would have
led to an instruction (`services_of_idles`). -/
theorem stepOfAHaltedMachineIsAnIdleTick : Obligations.StepOfAHaltedMachineIsAnIdleTick := by
  unfold Obligations.StepOfAHaltedMachineIsAnIdleTick
  intro s hf hr hi
  have hshape := shape_of_idles s hi
  refine ⟨_, exec_step_of_completes s hf hr (completes_of_not_executes _ (executes_of_idles _ hi)), rfl,
    bodyDone_elapsed_of_idles _ hi, ?none, ?cpu, hshape, services_of_idles _ hi⟩
  case none => exact hshape.countOps_cpuStep.trans (by cases s.begin.services <;> rfl)
  case cpu =>
    rw [respond_world, bodyDone_cpu, atTimer_of_idles _ hi]
    exact atHaltTest_cpu _ (idles_spec _ hi).1

/-- Settles O18: the step ends in the state `CPU.step` left, with nothing but the fault raised. -/
theorem stepStopsAtAFatalFault : Obligations.StepStopsAtAFatalFault := by
  unfold Obligations.StepStopsAtAFatalFault
  intro s info hf hr hx
  refine ⟨_, exec_step_of_faultsWith s hf hr hx, rfl, rfl, rfl, rfl, rfl, ?trace, ?presented⟩
  case trace => rw [raiseFault_trace, cpuStep_trace, hx.2]
  case presented =>
    obtain ⟨-, -, -, hp⟩ := atHaltTest_keeps s.begin
    simpa only [raiseFault_presented, cpuStep_presented, State.atCpuStep, log_presented, begin_presented] using hp

/-- Settles O19: the three completing ways of `arbiter_cases`, each with the `elapsed` it leaves; the tail hands that one
value to both peripherals (`bodyDone_trace_advances`). -/
theorem elapsedIsZeroDeltaOrOne : Obligations.ElapsedIsZeroDeltaOrOne := by
  unfold Obligations.ElapsedIsZeroDeltaOrOne
  intro s t hf he hs
  obtain ⟨-, hc, rfl⟩ := exec_step_ok s hf he hs
  refine ⟨?cases, elapsedSince_of_le, bodyDone_trace_advances s.begin⟩
  rcases arbiter_cases s.begin with
    ⟨hd, -, hx, hi, -⟩ | ⟨hd, hx, hi, -⟩ | ⟨hd, hx, hi, -⟩ | ⟨info, -, -, -, -, hn⟩
  · exact .inl ⟨hd, hx, hi, bodyDone_elapsed_of_dmaTakes _ hd⟩
  · exact .inr (.inr ⟨hd, hx, hi, services_of_idles _ hi, bodyDone_elapsed_of_idles _ hi⟩)
  · exact .inr (.inl ⟨hd, hx, hi, bodyDone_elapsed_of_executes _ hx⟩)
  · rw [hc] at hn; cases hn

/-- Settles O20: the presented frames and the end of the trace of a completed body, as the tail leaves them. -/
theorem displayEdgeDecidesPresentationAndNotification : Obligations.DisplayEdgeDecidesPresentationAndNotification := by
  unfold Obligations.DisplayEdgeDecidesPresentationAndNotification
  intro s t hf he hs
  obtain ⟨-, -, rfl⟩ := exec_step_ok s hf he hs
  exact ⟨bodyDone_presented s.begin, bodyDone_trace_edge s.begin⟩

end Sys2Proof.Machine
end

section
/-!
SUPPORT. The start of a `FRAME` and its loop tests, each outcome reached from the premise that selects it; that neither a
step body nor a step while a command is in progress issues the two micro-operations of F1; and the statements of
spec/41_frame.md R141 and R144.
-/

namespace Sys2Proof.Machine

namespace State

variable (s : State)

/-! ### A body whose calls all return -/

theorem stepBody_of_completes (hr : s.bodyReturns = true) (hc : s.completes = true) :
    s.stepBody = .completed s.bodyDone := by
  rcases stepBody_cases s with ⟨-, -, e⟩ | ⟨info, -, hx, -⟩ | ⟨_, _, _, _, hn, -⟩
  · exact e
  · rw [completes_of_faultsWith s hx] at hc; cases hc
  · rw [hr] at hn; cases hn

theorem stepBody_of_faultsWith {info : FaultInfo} (hr : s.bodyReturns = true) (hx : s.faultsWith info) :
    s.stepBody = .raised (s.atCpuStep.cpuStep.raiseFault info) := by
  rcases stepBody_cases s with ⟨-, hc, -⟩ | ⟨j, -, hj, e⟩ | ⟨_, _, _, _, hn, -⟩
  · rw [completes_of_faultsWith s hx] at hc; cases hc
  · rw [faultsWith_unique s hx hj]; exact e
  · rw [hr] at hn; cases hn

/-- S1 to S5 present nothing. -/
theorem cpuStepDone_presented : s.atCpuStep.cpuStep.presented = s.presented := by
  obtain ⟨-, -, -, h⟩ := atHaltTest_keeps s
  exact h

/-! ### The micro-operations of F1 -/

/-- The identifier is that of `IO.set_keyinput` or of `BACKEND.poll_input` (R70). -/
def IsInputOp (id : BitVec 5) : Prop := id = 15 ∨ id = 16

theorem keptByBody_countInputOps {id : BitVec 5} (hid : IsInputOp id) (n : Nat) :
    KeptByBody (fun t => countOps id t.trace = n) := keptByBody_countOps id n (.inr (.inr hid))

theorem countOps_stepBody {id : BitVec 5} (hid : IsInputOp id) :
    countOps id s.stepBody.state.trace = countOps id s.trace := by
  rcases (keptByBody_countInputOps hid _).stepBody (s := s) rfl with ⟨t, e, h⟩ | ⟨t, info, e, h⟩ | ⟨t, c, e, h⟩ <;>
    rw [e] <;> exact h

theorem countOps_readLevel {id : BitVec 5} (hid : IsInputOp id) :
    countOps id s.readLevel.trace = countOps id s.trace := by
  rw [readLevel_eq, log_trace, countOps_append]
  rcases hid with rfl | rfl <;> rfl

/-- While a command is in progress a step issues no micro-operation of F1. -/
theorem step_countOps_of_busy (hp : s.phase ≠ .idle) :
    ∃ t, step s = .next t ∧ ∀ id, IsInputOp id → countOps id t.trace = countOps id s.trace := by
  rcases phase_cases s with hi | hl | ⟨c, hc⟩
  · exact absurd hi hp
  · rcases step_loop_cases s hl with ⟨-, e⟩ | ⟨-, -, -, -, e⟩ | ⟨-, -, -, -, e⟩ | ⟨-, -, -, -, e⟩
    · exact ⟨_, e, fun _ _ => rfl⟩
    · exact ⟨_, e, fun _ hid => countOps_readLevel s hid⟩
    · exact ⟨_, e, fun _ hid => countOps_readLevel s hid⟩
    · exact ⟨_, e, fun _ hid => (countOps_stepBody s.readLevel hid).trans (countOps_readLevel s hid)⟩
  · exact ⟨s, step_stuck s hc, fun _ _ => rfl⟩

/-- A `STEP` is refused, or is one body, and so issues no micro-operation of F1. -/
theorem exec_step_countOps :
    ∃ t, exec .step s = .next t ∧ ∀ id, IsInputOp id → countOps id t.trace = 0 := by
  cases hf : s.fault with
  | true => exact ⟨s.begin.refuse, by simp [exec, execStep, hf], fun _ _ => rfl⟩
  | false =>
    rcases exec_step_ends s hf with ⟨-, -, e⟩ | ⟨info, -, -, e⟩ | ⟨pre, u, c, post, -, hc, -, -, e⟩
    · exact ⟨_, e, fun _ hid => (keptByBody_countInputOps hid 0).bodyDone rfl⟩
    · exact ⟨_, e, fun _ hid => (keptByBody_countInputOps hid 0).cpuStepDone rfl⟩
    · have hu : (u, c) ∈ s.begin.bodyCalls := hc ▸ List.mem_append_right _ List.mem_cons_self
      refine ⟨_, e, fun id hid => ?_⟩
      have k : countOps id u.trace = 0 := (keptByBody_countInputOps hid 0).calls rfl hu
      exact k

/-! ### The start of a `FRAME` -/

theorem exec_frame_of_inputReturns (hf : s.fault = false) (hr : s.begin.inputReturns = true) :
    exec .frame s = .next { s.begin.inputDone with phase := .f2 } := by
  rcases exec_frame_cases s hf with ⟨-, e⟩ | ⟨_, _, _, _, hn, -⟩
  · exact e
  · rw [hr] at hn; cases hn

/-- With the contract of `IO.set_keyinput` the input-state register holds the sample after F1 (R196). -/
theorem inputDone_keyInput (h : s.inputWritten = true) : s.inputDone.world.io.keyInput = s.polledKey :=
  beq_iff_eq.mp h

theorem inputDone_trace : s.inputDone.trace =
    s.trace ++ [.backendPollInput s.polledKey, .ioSetKeyinput s.polledKey] :=
  List.append_assoc _ _ _

/-! ### A loop test whose calls all return -/

theorem loopReturns_spec (h : s.loopReturns = true) :
    s.returns .displayState = true ∧ (s.loopsOn = true → s.readLevel.bodyReturns = true) := by
  rw [State.loopReturns, Bool.and_eq_true] at h
  exact ⟨h.1, fun hl => by simpa only [hl, Bool.not_true, Bool.false_or] using h.2⟩

/-- A body that completes leaves the `FRAME` at the same test and gives no response. -/
theorem loopBody_of_completes (hr : s.readLevel.bodyReturns = true) (hc : s.readLevel.completes = true) :
    s.readLevel.stepBody.state = s.readLevel.bodyDone ∧ s.readLevel.stepBody.state.phase = s.phase ∧
      s.readLevel.stepBody.state.response = s.response := by
  have hk := (sameSetting_readLevel s).trans (sameSetting_bodyDone s.readLevel)
  rw [stepBody_of_completes _ hr hc]
  exact ⟨rfl, hk.phase, hk.response⟩

/-- A body that faults ends the `FRAME` where its `CPU.step` left the world (R144, R221). -/
theorem loopBody_of_faultsWith {info : FaultInfo} (hr : s.readLevel.bodyReturns = true)
    (hx : s.readLevel.faultsWith info) :
    s.readLevel.stepBody.state = s.readLevel.atCpuStep.cpuStep.raiseFault info := by
  rw [stepBody_of_faultsWith _ hr hx]
  rfl

end State

open State

/-! ### The statements -/

/-- Settles O31: F1 is one poll and one write of the polled value, before the first loop test
(`exec_frame_of_inputReturns`); a step of a command in progress and a `STEP` are at most one step body, which issues
neither. -/
theorem frameSamplesTheInputOnceAndEntersItsLoop : Obligations.FrameSamplesTheInputOnceAndEntersItsLoop := by
  unfold Obligations.FrameSamplesTheInputOnceAndEntersItsLoop
  refine ⟨fun s hf hr => ?start, fun s hp => ?busy, fun s => ?step⟩
  case start =>
    exact ⟨_, exec_frame_of_inputReturns s hf hr, rfl, rfl, inputDone_keyInput s.begin, inputDone_trace s.begin, rfl, rfl,
      rfl, rfl, hf, rfl, rfl, rfl, rfl⟩
  case busy =>
    obtain ⟨t, e, h⟩ := step_countOps_of_busy s hp
    exact ⟨t, e, h 15 (.inl rfl), h 16 (.inr rfl)⟩
  case step =>
    obtain ⟨t, e, h⟩ := exec_step_countOps s
    exact ⟨t, e, h 15 (.inl rfl), h 16 (.inr rfl)⟩

/-- Settles O32: the ways of `step_loop_cases`, of which the read that does not return is excluded, each the only one its
premise admits; the body is one whose calls all return. -/
theorem frameLoopTestsTheLevelAndRunsOneBody : Obligations.FrameLoopTestsTheLevelAndRunsOneBody := by
  unfold Obligations.FrameLoopTestsTheLevelAndRunsOneBody
  intro s hl hr
  obtain ⟨hd, hb⟩ := loopReturns_spec s hr
  rcases step_loop_cases s hl with ⟨hn, -⟩ | ⟨-, h2, -, hoff, e⟩ | ⟨-, h3, -, hoff, e⟩ | ⟨-, hon, h2, h3, e⟩
  · rw [hd] at hn; cases hn
  · refine ⟨_, e, fun _ _ => rfl, fun h3 => ?_, fun hon => ?_⟩
    · rw [h2] at h3; cases h3
    · rw [hoff] at hon; cases hon
  · refine ⟨_, e, fun h2 => ?_, fun _ _ => rfl, fun hon => ?_⟩
    · rw [h3] at h2; cases h2
    · rw [hoff] at hon; cases hon
  · refine ⟨_, e, fun hp hv => absurd hv (h2.mp hp), fun hp hv => absurd (h3.mp hp) hv, fun _ =>
      ⟨loopBody_of_completes s (hb hon), fun info hx => ?_⟩⟩
    rw [loopBody_of_faultsWith s (hb hon) hx]
    exact ⟨rfl, rfl, rfl, rfl, rfl, cpuStepDone_presented s.readLevel⟩

end Sys2Proof.Machine
end

section
/-!
SUPPORT. The breakpoint set (spec/42_breakpoints.md): what a command with `FAULT = 1` answers, what a command and a step
make of the set, said once, and the statements of the family.
-/

namespace Sys2Proof.Machine

namespace State

variable (s : State)

/-- The gate every command begins with (R101, R145, R160, R161). -/
theorem exec_of_fault (i : Instr) (hf : s.fault = true) : exec i s = .next s.begin.refuse := by
  cases i with
  | step => simp [exec, execStep, hf]
  | frame => simp [exec, execFrame, hf]
  | addBreakpoint a => simp [exec, execAddBreakpoint, hf]
  | checkBreakpoint => simp [exec, execCheckBreakpoint, hf]

/-! ### What a command makes of the set -/

/-- `ys` is the set `xs`, or `xs` and one entry after it. -/
def SameOrOneMore (xs ys : List Addr) : Prop := ys = xs ∨ ∃ a, ys = xs ++ [a]

theorem SameOrOneMore.prefix_and_length {xs ys : List Addr} (h : SameOrOneMore xs ys) :
    xs <+: ys ∧ ys.length ≤ xs.length + 1 := by
  rcases h with rfl | ⟨a, rfl⟩
  · exact ⟨List.prefix_rfl, Nat.le_succ _⟩
  · exact ⟨List.prefix_append _ _, List.length_append.le⟩

/-- No step body looks at the set (R162). -/
theorem stepBody_bp : s.stepBody.state.bp = s.bp := by
  rcases (keptByBody_sameSetting s).stepBody (.refl s) with ⟨t, e, h⟩ | ⟨t, info, e, h⟩ | ⟨t, c, e, h⟩ <;>
    rw [e] <;> exact h.bp

theorem exec_step_bp : ∃ t, exec .step s = .next t ∧ t.bp = s.bp := by
  cases hf : s.fault with
  | true => exact ⟨_, exec_of_fault s .step hf, rfl⟩
  | false =>
    rcases exec_step_ends s hf with ⟨-, -, e⟩ | ⟨info, -, -, e⟩ | ⟨pre, u, c, post, -, hc, -, -, e⟩
    · exact ⟨_, e, (sameSetting_bodyDone s.begin).bp⟩
    · exact ⟨_, e, (sameSetting_cpuStep s.begin).bp⟩
    · have hu : (u, c) ∈ s.begin.bodyCalls := hc ▸ List.mem_append_right _ List.mem_cons_self
      exact ⟨_, e, (sameSetting_call s.begin hu).bp⟩

/-- Neither call of F1 touches the set. -/
theorem inputCalls_bp {u : State} {c : Call} (h : (u, c) ∈ s.inputCalls) : u.bp = s.bp := by
  simp only [State.inputCalls, List.mem_cons, Prod.mk.injEq, List.not_mem_nil, or_false] at h
  rcases h with ⟨rfl, -⟩ | ⟨rfl, -⟩ <;> rfl

theorem exec_frame_bp : ∃ t, exec .frame s = .next t ∧ t.bp = s.bp := by
  cases hf : s.fault with
  | true => exact ⟨_, exec_of_fault s .frame hf, rfl⟩
  | false =>
    rcases exec_frame_cases s hf with ⟨-, e⟩ | ⟨pre, u, c, post, -, hc, -, -, e⟩
    · exact ⟨_, e, rfl⟩
    · have hu : (u, c) ∈ s.begin.inputCalls := hc ▸ List.mem_append_right _ List.mem_cons_self
      exact ⟨_, e, (hang_bp u c).trans (inputCalls_bp s.begin hu)⟩

theorem exec_addBreakpoint_bp (a : Addr) :
    ∃ t, exec (.addBreakpoint a) s = .next t ∧ SameOrOneMore s.bp t.bp := by
  cases hf : s.fault with
  | true => exact ⟨_, exec_of_fault s _ hf, .inl rfl⟩
  | false =>
    by_cases h : a ∈ s.bp
    · exact ⟨_, exec_addBreakpoint_duplicate s a hf h, .inl rfl⟩
    · by_cases k : s.build.bpMax = some s.bp.length
      · exact ⟨_, exec_addBreakpoint_full s a hf h k, .inl rfl⟩
      · exact ⟨_, exec_addBreakpoint_new s a hf h k, .inr ⟨a, rfl⟩⟩

theorem exec_checkBreakpoint_bp : ∃ t, exec .checkBreakpoint s = .next t ∧ t.bp = s.bp := by
  cases hf : s.fault with
  | true => exact ⟨_, exec_of_fault s _ hf, rfl⟩
  | false =>
    cases hr : s.begin.returns .cpuNextPc with
    | false => exact ⟨_, exec_checkBreakpoint_stuck s hf hr, rfl⟩
    | true =>
      by_cases h : s.nextPc ∈ s.bp
      · exact ⟨_, exec_checkBreakpoint_hit s hf hr h, rfl⟩
      · exact ⟨_, exec_checkBreakpoint_miss s hf hr h, rfl⟩

/-! ### What a step makes of the set -/

theorem exec_bp (i : Instr) : ∃ t, exec i s = .next t ∧ SameOrOneMore s.bp t.bp := by
  cases i with
  | step => exact (exec_step_bp s).imp fun _ h => h.imp_right .inl
  | frame => exact (exec_frame_bp s).imp fun _ h => h.imp_right .inl
  | addBreakpoint a => exact exec_addBreakpoint_bp s a
  | checkBreakpoint => exact (exec_checkBreakpoint_bp s).imp fun _ h => h.imp_right .inl

theorem step_command {w : Nat} {rest : List CallerAction} (hp : s.phase = .idle) (hc : s.caller = .command w :: rest) :
    step s = exec (decode s.build.addrW (BitVec.ofNat _ w)) { s with caller := rest } := by
  cases s; cases hp; cases hc; rfl

theorem step_setWorld {cpu : Cpu} {writes : List Host.Cell} {io : IoAggregate} {rest : List CallerAction}
    (hp : s.phase = .idle) (hc : s.caller = .setWorld cpu writes io :: rest) :
    step s = .next ({ s with caller := rest }.callerSetsWorld cpu writes io) := by
  cases s; cases hp; cases hc; rfl

theorem step_idle_bp (hp : s.phase = .idle) (hn : s.resetsNext = false) :
    ∃ t, step s = .next t ∧ SameOrOneMore s.bp t.bp := by
  cases hc : s.caller with
  | nil => exact ⟨s, by simp [step, hp, hc], .inl rfl⟩
  | cons action rest =>
    cases action with
    | command w =>
      obtain ⟨t, e, h⟩ := exec_bp { s with caller := rest } (decode s.build.addrW (BitVec.ofNat _ w))
      exact ⟨t, (step_command s hp hc).trans e, h⟩
    | setWorld cpu writes io => exact ⟨_, step_setWorld s hp hc, .inl rfl⟩
    | reset => simp [State.resetsNext, hp, hc] at hn

theorem step_loop_bp (hl : s.inLoop = true) : ∃ t, step s = .next t ∧ t.bp = s.bp := by
  rcases step_loop_cases s hl with ⟨-, e⟩ | ⟨-, -, -, -, e⟩ | ⟨-, -, -, -, e⟩ | ⟨-, -, -, -, e⟩
  · exact ⟨_, e, rfl⟩
  · exact ⟨_, e, rfl⟩
  · exact ⟨_, e, rfl⟩
  · exact ⟨_, e, stepBody_bp s.readLevel⟩

theorem step_bp (hn : s.resetsNext = false) : ∃ t, step s = .next t ∧ SameOrOneMore s.bp t.bp := by
  rcases phase_cases s with hi | hl | ⟨c, hc⟩
  · exact step_idle_bp s hi hn
  · exact (step_loop_bp s hl).imp fun _ h => h.imp_right .inl
  · exact ⟨s, step_stuck s hc, .inl rfl⟩

end State

open State

/-! ### The statements -/

/-- Settles O38: the duplicate test, the capacity test and the append, in that order, each by its equation; with `FAULT`
set the gate answers. -/
theorem addBreakpointAppendsAnswersDuplicateOrFull : Obligations.AddBreakpointAppendsAnswersDuplicateOrFull := by
  unfold Obligations.AddBreakpointAppendsAnswersDuplicateOrFull
  refine ⟨fun a s hf => ⟨Config.unspecifiedInfo s.draws, ?operational⟩, fun a s hf => ?refused⟩
  case operational =>
    by_cases h : a ∈ s.bp
    · rw [exec_addBreakpoint_duplicate s a hf h, if_pos (.inl h), if_pos h]
      rfl
    · by_cases k : s.build.bpMax = some s.bp.length
      · rw [exec_addBreakpoint_full s a hf h k, if_pos (.inr k), if_neg h, if_pos k]
        rfl
      · rw [exec_addBreakpoint_new s a hf h k, if_neg (not_or.mpr ⟨h, k⟩), if_neg h, if_neg k]
        rfl
  case refused => exact ⟨_, exec_of_fault s _ hf, rfl, rfl⟩

/-- Settles O40: the address read is in the set or it is not, and the answer is the address or `NONE`; with `FAULT` set
the gate answers before the address is read. -/
theorem checkBreakpointAnswersTheNextAddressIfPresent : Obligations.CheckBreakpointAnswersTheNextAddressIfPresent := by
  unfold Obligations.CheckBreakpointAnswersTheNextAddressIfPresent
  refine ⟨fun s hf hr => ⟨Config.unspecifiedInfo s.draws, ?operational⟩, fun s hf => ?refused⟩
  case operational =>
    by_cases h : s.nextPc ∈ s.bp
    · rw [exec_checkBreakpoint_hit s hf hr h, if_pos h]
      rfl
    · rw [exec_checkBreakpoint_miss s hf hr h, if_neg h]
      rfl
  case refused => exact ⟨_, exec_of_fault s _ hf, rfl, rfl⟩

/-- Settles O42: a step that is not the reset leaves the set as it is or puts one entry after it (`step_bp`): only an
`ADD_BREAKPOINT` appends, and a loop test and a stuck command leave the set alone. -/
theorem breakpointSetOnlyGrowsUntilReset : Obligations.BreakpointSetOnlyGrowsUntilReset := by
  unfold Obligations.BreakpointSetOnlyGrowsUntilReset
  intro s t e hn
  obtain ⟨u, e', h⟩ := step_bp s hn
  cases e.symm.trans e'
  exact h.prefix_and_length

end Sys2Proof.Machine
end

section
/-!
SUPPORT. A step from a state with `FAULT = 1` (spec/60_exceptions.md R236, R145): the caller's reset, or a step that leaves
the latch as it is; and the statement of the family.
-/

namespace Sys2Proof.Machine

namespace State

variable (s : State)

/-- The reset ahead is what the step does (R260), with the reset taken off the caller's list. -/
theorem step_reset (hr : s.resetsNext = true) :
    ∃ rest, step s = .next { s with caller := rest }.callerResets := by
  obtain ⟨hp, hc⟩ : s.phase = .idle ∧ s.caller.head? = some .reset := by simpa [State.resetsNext] using hr
  obtain ⟨rest, hc⟩ := List.head?_eq_some_iff.mp hc
  exact ⟨rest, by simp [step, hp, hc]⟩

@[simp] theorem callerResets_fault : s.callerResets.fault = false := rfl

/-- With `FAULT = 1` and no reset ahead, the caller's turn leaves the latch and its value as they are: a command is refused
at its gate, and the caller cannot write either register (R275). -/
theorem step_keeps_fault (hp : s.phase = .idle) (hf : s.fault = true) (hn : s.resetsNext = false) :
    ∃ t, step s = .next t ∧ t.fault = true ∧ t.faultInfo = s.faultInfo := by
  cases hc : s.caller with
  | nil => exact ⟨s, by simp [step, hp, hc], hf, rfl⟩
  | cons action rest =>
    cases action with
    | command w => exact ⟨_, (step_command s hp hc).trans (exec_of_fault _ _ hf), hf, rfl⟩
    | setWorld cpu writes io => exact ⟨_, step_setWorld s hp hc, hf, rfl⟩
    | reset => simp [State.resetsNext, hp, hc] at hn

end State

open State

/-- Settles O11: the gate answers every command (`exec_of_fault`); and since the invariant has the sequencer idle when
`FAULT` is set, the next step is the caller's reset (`step_reset`) or one that keeps the latch (`step_keeps_fault`). -/
theorem everyCommandIsRefusedAfterAFault : Obligations.EveryCommandIsRefusedAfterAFault := by
  unfold Obligations.EveryCommandIsRefusedAfterAFault
  refine ⟨fun i s hf => exec_of_fault s i hf, fun s t hinv hf e => ?recovery⟩
  cases hr : s.resetsNext with
  | true =>
    obtain ⟨rest, e'⟩ := step_reset s hr
    cases e.symm.trans e'
    simp
  | false =>
    obtain ⟨u, e', hu, -⟩ := step_keeps_fault s (hinv.faultIdle hf) hf hr
    cases e.symm.trans e'
    simp [hu]

end Sys2Proof.Machine
end

section
/-!
SUPPORT. The opcode map and the encoder undo each other (spec/30_encoding.md R61 to R63), and the statements about command
words.
-/

namespace Sys2Proof

/-! ### The opcode map and the fields of a command -/

/-- The statement of Sys2Proof/Laws/PerInstr.lean for every command at once. -/
theorem encodedFields (i : Instr) : Laws.EncodedFields.Statement i := by
  cases i with
  | step => exact Laws.EncodedFields.step
  | frame => exact Laws.EncodedFields.frame
  | addBreakpoint address => exact Laws.EncodedFields.addBreakpoint address
  | checkBreakpoint => exact Laws.EncodedFields.checkBreakpoint

theorem opField_encode (aw : Nat) (i : Instr) : opField aw (encode aw i) = opcodeOf i := by
  obtain ⟨h, -⟩ := encodedFields i aw
  exact h

theorem argField_encode (aw : Nat) (i : Instr) : argField aw (encode aw i) = argumentOf aw i := by
  obtain ⟨-, h⟩ := encodedFields i aw
  exact h

/-- An address of the build's width loses no bit in the `arg` field (R63). -/
theorem argumentOf_addBreakpoint_toNat {aw : Nat} {a : Addr} (h : a < 2 ^ aw) :
    (argumentOf aw (.addBreakpoint a)).toNat = a :=
  (BitVec.toNat_ofNat a aw).trans (Nat.mod_eq_of_lt h)

theorem commandOf_opcodeOf {aw : Nat} {i : Instr} (h : i.WellFormed aw) :
    commandOf (opcodeOf i) (argumentOf aw i).toNat = i := by
  cases i with
  | step => exact commandOf_zero _
  | frame => exact commandOf_one _
  | addBreakpoint a => rw [argumentOf_addBreakpoint_toNat h]; exact commandOf_two a
  | checkBreakpoint => exact commandOf_three _

/-- The four values of the `op` field (R62: all are used). -/
theorem op_cases (op : BitVec 2) : op = 0b00#2 ∨ op = 0b01#2 ∨ op = 0b10#2 ∨ op = 0b11#2 := by
  revert op
  decide

theorem opcodeOf_commandOf (op : BitVec 2) (a : Addr) : opcodeOf (commandOf op a) = op := by
  rcases op_cases op with rfl | rfl | rfl | rfl <;> rfl

theorem commandOf_wellFormed {aw : Nat} {a : Addr} (op : BitVec 2) (h : a < 2 ^ aw) : (commandOf op a).WellFormed aw := by
  rcases op_cases op with rfl | rfl | rfl | rfl
  · exact trivial
  · exact trivial
  · exact h
  · exact trivial

/-! ### The decoder and the encoder -/

theorem decode_encode {aw : Nat} {i : Instr} (h : i.WellFormed aw) : decode aw (encode aw i) = i := by
  rw [decode, opField_encode, argField_encode, commandOf_opcodeOf h]

/-- What a word decodes to fits the build the word is of. -/
theorem decode_wellFormed (aw : Nat) (w : CmdWord aw) : (decode aw w).WellFormed aw :=
  commandOf_wellFormed _ (argField aw w).isLt

theorem opField_encode_decode (aw : Nat) (w : CmdWord aw) : opField aw (encode aw (decode aw w)) = opField aw w := by
  rw [opField_encode, decode, opcodeOf_commandOf]

/-- Where `arg` is the address, no bit of the word is ignored. -/
theorem encode_decode_of_addBreakpoint {aw : Nat} {w : CmdWord aw} (h : opField aw w = 0b10#2) :
    encode aw (decode aw w) = w := by
  have harg : argumentOf aw (.addBreakpoint (argField aw w).toNat) = argField aw w := by
    rw [argumentOf, BitVec.ofNat_toNat, BitVec.setWidth_eq]
  calc encode aw (decode aw w)
      = makeWord aw 0b10#2 (argumentOf aw (.addBreakpoint (argField aw w).toNat)) := by
        rw [decode, h, commandOf_two]; rfl
    _ = makeWord aw (opField aw w) (argField aw w) := by rw [harg, h]
    _ = w := makeWord_fields aw w

end Sys2Proof

namespace Sys2Proof.Machine

/-- Settles O3: the fields of an encoding are the command's (`encodedFields`), and on them the opcode map is undone by
`opcodeOf` and `argumentOf`. -/
theorem decodeAndEncodeAgree : Obligations.DecodeAndEncodeAgree := by
  unfold Obligations.DecodeAndEncodeAgree
  exact ⟨fun _ _ h => decode_encode h,
    fun aw w => ⟨decode_wellFormed aw w, opField_encode_decode aw w, encode_decode_of_addBreakpoint⟩⟩

/-- Settles O1: each word has its opcode above bit 32 and, for `ADD_BREAKPOINT`, its address below. -/
theorem commandWordsDecodeAsListed : Obligations.CommandWordsDecodeAsListed := by
  unfold Obligations.CommandWordsDecodeAsListed
  refine ⟨?_, ?_, ?_, ?_, ?_, ?_⟩
  · exact decode_eq_commandOf (op := 0b00#2) (by decide)
  · exact decode_eq_commandOf (op := 0b00#2) (by decide)
  · exact decode_eq_commandOf (op := 0b01#2) (by decide)
  · exact decode_eq_commandOf (op := 0b10#2) (by decide)
  · exact decode_eq_commandOf (op := 0b10#2) (by decide)
  · exact decode_eq_commandOf (op := 0b11#2) (by decide)

end Sys2Proof.Machine
end

section
/-!
SUPPORT. The other codes on the scheduler's interfaces (spec/30_encoding.md R64 to R67) and the lines of a command script
(R72), with the statements about them.
-/

namespace Sys2Proof.Machine

/-! ### The response word -/

/-- The status is above the data, which fits the field below it (R64). -/
theorem Response.word_toNat (aw : Nat) (r : Response) (h : r.data < 2 ^ aw) :
    (r.word aw).toNat = r.status.code.toNat * 2 ^ aw + r.data := by
  have hd : r.data % 2 ^ aw = r.data := Nat.mod_eq_of_lt h
  rw [Response.word, BitVec.toNat_cast, BitVec.toNat_append, BitVec.toNat_ofNat, hd, Nat.shiftLeft_eq,
    Nat.mul_comm, Nat.two_pow_add_eq_or_of_lt h]

/-- No two statuses share a code (R65). -/
theorem Status.code_inj {a b : Status} : a.code = b.code ↔ a = b := by
  constructor
  · cases a <;> cases b <;> decide
  · rintro rfl; rfl

/-- Settles O4: the word as a number, and the codes, which tell the statuses apart. -/
theorem responseWordHoldsStatusAndData : Obligations.ResponseWordHoldsStatusAndData := by
  unfold Obligations.ResponseWordHoldsStatusAndData
  intro aw r
  exact ⟨r.word_toNat aw, Status.code_inj (b := .ok), Status.code_inj (b := .okData), Status.code_inj (b := .none),
    Status.code_inj (b := .fault), Status.code_inj (b := .refused), Status.code_inj (b := .bpFull)⟩

/-! ### The notification code -/

theorem transOfCode_transCode (t : Option DisplayState) : transOfCode (transCode t) = t := by
  rcases t with _ | (_ | _ | _ | _) <;> rfl

/-- With `valid = 0` the `t` bits are ignored (R67). -/
theorem transOfCode_of_lt_four {c : BitVec 3} (h : c.toNat < 4) : transOfCode c = none := by
  revert c
  decide

theorem transOfCode_of_valid {c : BitVec 3} {d : DisplayState} (h : c.toNat = 4 + d.code.toNat) :
    transOfCode c = some d := by
  have hc : c = transCode (some d) := by
    apply BitVec.eq_of_toNat_eq
    rw [h]
    cases d <;> rfl
  rw [hc, transOfCode_transCode]

/-- Settles O5: the eight codes, by their `valid` bit. -/
theorem transitionCodesReadBack : Obligations.TransitionCodesReadBack := by
  unfold Obligations.TransitionCodesReadBack
  exact ⟨transOfCode_transCode, fun _ => transOfCode_of_lt_four, fun _ _ => transOfCode_of_valid, rfl, rfl, rfl, rfl⟩

/-! ### Script lines -/

/-- The four forms of a line, and what each stands for (R72). -/
theorem assembleLine_eq_some_iff (aw : Nat) (l : ScriptLine) (i : Instr) : assembleLine aw l = some i ↔
    (l.mnemonic = .step ∧ l.operand = none ∧ i = .step) ∨
    (l.mnemonic = .frame ∧ l.operand = none ∧ i = .frame) ∨
    (∃ a, a < 2 ^ aw ∧ l.mnemonic = .addBreakpoint ∧ l.operand = some a ∧ i = .addBreakpoint a) ∨
    (l.mnemonic = .checkBreakpoint ∧ l.operand = none ∧ i = .checkBreakpoint) := by
  obtain ⟨m, o⟩ := l
  cases o with
  | none =>
    cases m <;> simp [assembleLine, ScriptLine.wellFormed, ScriptLine.noStrayOperand, ScriptLine.operandPresent,
      ScriptLine.addressInRange, Mnemonic.takesAddress, eq_comm]
  | some a =>
    cases m with
    | addBreakpoint =>
      simp [assembleLine, ScriptLine.wellFormed, ScriptLine.noStrayOperand, ScriptLine.operandPresent,
        ScriptLine.addressInRange, Mnemonic.takesAddress, eq_comm]
    | _ =>
      simp [assembleLine, ScriptLine.wellFormed, ScriptLine.noStrayOperand, Mnemonic.takesAddress]

/-- What a line stands for is well formed. -/
theorem instr_wellFormed_of_assembleLine {aw : Nat} {l : ScriptLine} {i : Instr} (h : assembleLine aw l = some i) :
    i.WellFormed aw := by
  rcases (assembleLine_eq_some_iff aw l i).mp h with
    ⟨-, -, rfl⟩ | ⟨-, -, rfl⟩ | ⟨a, ha, -, -, rfl⟩ | ⟨-, -, rfl⟩
  · exact trivial
  · exact trivial
  · exact ha
  · exact trivial

/-- An ill-formed line stands for nothing. -/
theorem line_wellFormed_of_assembleLine {aw : Nat} {l : ScriptLine} {i : Instr} (h : assembleLine aw l = some i) :
    l.wellFormed aw = true := by
  by_contra hn
  rw [assembleLine, if_neg hn] at h
  cases h

theorem assembleLine_of_wellFormed {aw : Nat} {l : ScriptLine} (h : l.wellFormed aw = true) :
    ∃ i, assembleLine aw l = some i := by
  obtain ⟨m, o⟩ := l
  rw [assembleLine, if_pos h]
  cases m with
  | step => exact ⟨.step, rfl⟩
  | frame => exact ⟨.frame, rfl⟩
  | checkBreakpoint => exact ⟨.checkBreakpoint, rfl⟩
  | addBreakpoint =>
    cases o with
    | none => cases h
    | some a => exact ⟨.addBreakpoint a, rfl⟩

/-- A line of none of the four forms stands for nothing. -/
theorem assembleLine_eq_none {aw : Nat} {l : ScriptLine} (h : ∀ i, assembleLine aw l ≠ some i) :
    assembleLine aw l = none :=
  Option.eq_none_iff_forall_ne_some.mpr h

/-- Settles O6: the four forms (`assembleLine_eq_some_iff`), none of which has a stray operand, a missing address or an
address out of range. -/
theorem scriptLinesAssembleExactlyWhenWellFormed : Obligations.ScriptLinesAssembleExactlyWhenWellFormed := by
  unfold Obligations.ScriptLinesAssembleExactlyWhenWellFormed
  intro aw l
  refine ⟨assembleLine_eq_some_iff aw l, fun hm ho => ?stray, fun hm ho => ?missing, fun a ho ha => ?range, ?wellFormed⟩
  case stray =>
    refine assembleLine_eq_none fun i h => ?_
    rcases (assembleLine_eq_some_iff aw l i).mp h with ⟨-, h, -⟩ | ⟨-, h, -⟩ | ⟨_, -, h, -⟩ | ⟨-, h, -⟩
    · exact ho h
    · exact ho h
    · exact hm h
    · exact ho h
  case missing =>
    refine assembleLine_eq_none fun i h => ?_
    rcases (assembleLine_eq_some_iff aw l i).mp h with ⟨h, -⟩ | ⟨h, -⟩ | ⟨_, -, -, h, -⟩ | ⟨h, -⟩
    · rw [hm] at h; cases h
    · rw [hm] at h; cases h
    · rw [ho] at h; cases h
    · rw [hm] at h; cases h
  case range =>
    refine assembleLine_eq_none fun i h => ?_
    rcases (assembleLine_eq_some_iff aw l i).mp h with ⟨-, h, -⟩ | ⟨-, h, -⟩ | ⟨b, hb, -, h, -⟩ | ⟨-, h, -⟩
    · rw [ho] at h; cases h
    · rw [ho] at h; cases h
    · rw [ho] at h; cases h; exact absurd hb (Nat.not_lt.mpr ha)
    · rw [ho] at h; cases h
  case wellFormed =>
    constructor
    · intro h
      obtain ⟨i, e⟩ := assembleLine_of_wellFormed h
      exact ⟨i, e, instr_wellFormed_of_assembleLine e⟩
    · rintro ⟨i, e, -⟩
      exact line_wellFormed_of_assembleLine e

end Sys2Proof.Machine
end

section
/-!
SUPPORT. The caller's turn, action by action (spec/70_reset_and_hazards.md R260, R275, R276), the frames of the
micro-operations (spec/43_collaborator_ops.md R199), and the statements about them.
-/

namespace Sys2Proof.Machine

namespace State

variable (s : State)

/-! ### The caller's turn -/

theorem step_noAction (hp : s.phase = .idle) (hc : s.caller = []) : step s = .next s := by simp [step, hp, hc]

theorem step_callerResets {rest : List CallerAction} (hp : s.phase = .idle) (hc : s.caller = .reset :: rest) :
    step s = .next { s with caller := rest }.callerResets := by
  simp [step, hp, hc]

/-- No command is refused by the model: each has its meaning. -/
theorem exec_total (i : Instr) : ∃ t, exec i s = .next t := by
  cases i with
  | step => exact ⟨_, rfl⟩
  | frame => exact ⟨_, rfl⟩
  | addBreakpoint a => exact ⟨_, rfl⟩
  | checkBreakpoint => exact ⟨_, rfl⟩

/-- The ways of the caller's turn. -/
theorem step_idle_cases (hp : s.phase = .idle) :
    step s = .next s ∨
    (∃ w rest, s.caller = .command w :: rest ∧
      step s = exec (decode s.build.addrW (BitVec.ofNat _ w)) { s with caller := rest }) ∨
    (∃ cpu ws io rest, s.caller = .setWorld cpu ws io :: rest ∧
      step s = .next ({ s with caller := rest }.callerSetsWorld cpu ws io)) ∨
    (∃ rest, s.caller = .reset :: rest ∧ step s = .next { s with caller := rest }.callerResets) := by
  cases hc : s.caller with
  | nil => exact .inl (step_noAction s hp hc)
  | cons action rest =>
    refine .inr ?_
    cases action with
    | command w => exact .inl ⟨w, rest, rfl, step_command s hp hc⟩
    | setWorld cpu ws io => exact .inr (.inl ⟨cpu, ws, io, rest, rfl, step_setWorld s hp hc⟩)
    | reset => exact .inr (.inr ⟨rest, rfl, step_callerResets s hp hc⟩)

theorem step_total : ∃ t, step s = .next t := by
  rcases phase_cases s with hp | hl | ⟨c, hc⟩
  · rcases step_idle_cases s hp with e | ⟨w, rest, -, e⟩ | ⟨_, _, _, _, -, e⟩ | ⟨_, -, e⟩
    · exact ⟨_, e⟩
    · obtain ⟨t, h⟩ := exec_total { s with caller := rest } (decode s.build.addrW (BitVec.ofNat _ w))
      exact ⟨t, e.trans h⟩
    · exact ⟨_, e⟩
    · exact ⟨_, e⟩
  · rcases step_loop_cases s hl with ⟨-, e⟩ | ⟨-, -, -, -, e⟩ | ⟨-, -, -, -, e⟩ | ⟨-, -, -, -, e⟩ <;> exact ⟨_, e⟩
  · exact ⟨s, step_stuck s hc⟩

/-- A command word on the port is the word (R61). -/
theorem ofNat_toNat_word {aw : Nat} (w : CmdWord aw) : BitVec.ofNat (aw + 2) w.toNat = w := by
  rw [BitVec.ofNat_toNat, BitVec.setWidth_eq]

/-- The word of the model's device, numbered at the default width, is presented as the same command's word of this build. -/
theorem withFetchWord_eq (w : CmdWord 32) : s.withFetchWord 34 w.toNat =
    s.presentCommand (encode s.build.addrW (decode 32 w)).toNat := by
  have h : w.toNat % 2 ^ 34 = w.toNat := Nat.mod_eq_of_lt w.isLt
  have hw : BitVec.ofNat (defaultAddrW + 2) w.toNat = w := ofNat_toNat_word w
  rw [State.withFetchWord, h, hw]
  rfl

theorem step_presentCommand {i : Instr} (h : i.WellFormed s.build.addrW) :
    step (s.presentCommand (encode s.build.addrW i).toNat) = exec i { s with phase := .idle } := by
  have e : step (s.presentCommand (encode s.build.addrW i).toNat) =
      exec (decode s.build.addrW (BitVec.ofNat _ (encode s.build.addrW i).toNat)) { s with phase := .idle } :=
    step_command _ rfl rfl
  rw [e, ofNat_toNat_word, decode_encode h]

/-! ### The micro-operations with their contracts -/

/-- R193. -/
theorem mergeAnswer_of_mergeContract (h : s.mergeContract = true) :
    s.mergeAnswer = s.world.io.ic.requested ||| s.irqAcc :=
  beq_iff_eq.mp h

/-- With its contract, a merge of no bits changes nothing (R193). -/
theorem mergeRequests_world_of_zero (h : s.mergeContract = true) (h0 : s.irqAcc = 0) :
    s.mergeRequests.world = s.world := by
  rw [mergeRequests_world, mergeAnswer_of_mergeContract s h, h0, Nat.or_zero]

end State

open State

/-! ### The statements -/

/-- Settles O8: after reset every list is empty, every number 0 and the sequencer idle. -/
theorem invariantHoldsAtReset : Obligations.InvariantHoldsAtReset := by
  unfold Obligations.InvariantHoldsAtReset
  exact
    { memory := rfl
      bpNodup := List.nodup_nil
      bpBound := fun _ _ => Nat.zero_le _
      bpWidth := fun _ h => absurd h List.not_mem_nil
      irqWidth := Nat.two_pow_pos _
      worldFits := by decide
      dataWidth := fun _ h => by cases h
      w0Memory := rfl
      w0Fits := by decide
      w0Display := State.reset_display_level_ne_vblank
      faultIdle := fun _ => rfl
      busy := fun h => absurd rfl h }

/-- Settles O9: the step of an idle sequencer with a command ahead (`step_command`); and the word the model's device
presents is that of the command (`withFetchWord_eq`). -/
theorem stepRunsTheDecodedCommand : Obligations.StepRunsTheDecodedCommand := by
  unfold Obligations.StepRunsTheDecodedCommand
  refine ⟨fun s w rest hp hc => step_command s hp hc, fun s w h => ?device⟩
  case device => rw [withFetchWord_eq, step_presentCommand s h]

/-- Settles O10: the three other ways of the caller's turn. -/
theorem callerActionsBetweenCommands : Obligations.CallerActionsBetweenCommands := by
  unfold Obligations.CallerActionsBetweenCommands
  refine ⟨fun s rest hp hc => ?reset, fun s rest cpu ws io hp hc => ?setWorld, fun s => step_noAction s⟩
  case reset => exact ⟨_, step_callerResets s hp hc, rfl, rfl, rfl, rfl, rfl, rfl, rfl⟩
  case setWorld => rw [step_setWorld s hp hc]; rfl

/-- Settles O44: the caller's turn, a loop test and a stuck command each have a next state (`step_total`). -/
theorem everyStepHasANextState : Obligations.EveryStepHasANextState := by
  unfold Obligations.EveryStepHasANextState
  exact step_total

/-- Settles O45: the field lemmas of Sys2Proof/Laws/State.lean, and what the contracts of the merge and of the wake say. -/
theorem microOperationsKeepTheirFrames : Obligations.MicroOperationsKeepTheirFrames := by
  unfold Obligations.MicroOperationsKeepTheirFrames
  intro s
  exact ⟨mergeRequests_world s,
    fun h => ⟨mergeAnswer_of_mergeContract s h, mergeRequests_world_of_zero s h⟩,
    setRunning_world s, running_of_setRunningContract s, ⟨askPending_world s, askPending_irqAcc s⟩,
    ⟨rfl, rfl, rfl⟩, notifyVblank_world s, notifyHblank_world s, fun k => setKeyinput_world s k,
    ⟨pollInput_world s, fun fb => present_world s fb⟩⟩

end Sys2Proof.Machine
end

section
/-!
SUPPORT. The states a step body goes through (`ReachedInBody`), the invariant (`State.Inv`) along each way of a command, of
a loop test and of the caller's turn, and the statement that every step keeps it.
-/

namespace Sys2Proof.Machine

namespace State

variable (s : State)

/-! ### The states of a body -/

/-- `t` is reached from `s` inside a body: what every micro-operation of a body keeps holds of it. -/
def ReachedInBody (s t : State) : Prop := ∀ P : State → Prop, KeptByBody P → P s → P t

theorem reachedInBody_bodyDone : ReachedInBody s s.bodyDone := fun _ k h => k.bodyDone h

theorem reachedInBody_cpuStep : ReachedInBody s s.atCpuStep.cpuStep := fun _ k h => k.cpuStepDone h

/-- The call a list is split at is one of the list. -/
theorem mem_of_split {cs pre post : List (State × Call)} {p : State × Call} (h : cs = pre ++ p :: post) : p ∈ cs :=
  h ▸ List.mem_append_right pre List.mem_cons_self

/-- The state in which a body is stuck, as `stepBody_cases` and `exec_step_ends` give it. -/
theorem reachedInBody_stuck {pre post : List (State × Call)} {u : State} {c : Call}
    (h : s.bodyCalls = pre ++ (u, c) :: post) : ReachedInBody s u := fun _ k hs =>
  k.calls hs (mem_of_split h)

theorem ReachedInBody.sameSetting {s t : State} (h : ReachedInBody s t) : SameSetting s t :=
  h _ (keptByBody_sameSetting s) (.refl s)

/-- A body ends in a state it has reached, by completing, by raising the fault there, or by being stuck there. -/
theorem stepBody_reached :
    (∃ t, s.stepBody = .completed t ∧ ReachedInBody s t) ∨
    (∃ t info, s.stepBody = .raised (t.raiseFault info) ∧ ReachedInBody s t) ∨
    (∃ t c, s.stepBody = .stuck (t.hang c) ∧ ReachedInBody s t) := by
  rcases stepBody_cases s with ⟨-, -, e⟩ | ⟨info, -, -, e⟩ | ⟨pre, u, c, post, -, hc, -, -, e⟩
  · exact .inl ⟨_, e, reachedInBody_bodyDone s⟩
  · exact .inr (.inl ⟨_, info, e, reachedInBody_cpuStep s⟩)
  · exact .inr (.inr ⟨u, c, e, reachedInBody_stuck s hc⟩)

/-- A `STEP` with `FAULT = 0` is its body and, where that completes, the response (R100, R119). -/
theorem exec_step_eq (hf : s.fault = false) : exec .step s =
    .next (s.begin.stepBody.andThen fun t => .completed (t.respond .ok 0)).state := by
  show execStep s = _
  rw [execStep, hf]
  rfl

/-- A `STEP` with `FAULT = 0` ends in the same three ways, its response given when the body completes. -/
theorem exec_step_reached (hf : s.fault = false) :
    (∃ t, exec .step s = .next (t.respond .ok 0) ∧ ReachedInBody s.begin t) ∨
    (∃ t info, exec .step s = .next (t.raiseFault info) ∧ ReachedInBody s.begin t) ∨
    (∃ t c, exec .step s = .next (t.hang c) ∧ ReachedInBody s.begin t) := by
  have E := exec_step_eq s hf
  rcases stepBody_reached s.begin with ⟨t, e, k⟩ | ⟨t, info, e, k⟩ | ⟨t, c, e, k⟩ <;> rw [e] at E
  · exact .inl ⟨t, E, k⟩
  · exact .inr (.inl ⟨t, info, E, k⟩)
  · exact .inr (.inr ⟨t, c, E, k⟩)

/-! ### The invariant and the ends of a command -/

section

variable {s}

theorem Inv.begin (h : s.Inv) : s.begin.Inv :=
  { h with
    dataWidth := fun _ hr => by cases hr
    busy := fun _ => rfl }

theorem Inv.respond (h : s.Inv) (st : Status) {d : Addr} (hd : d < 2 ^ s.build.addrW) : (s.respond st d).Inv :=
  { h with
    dataWidth := fun r hr => by cases hr; exact hd
    faultIdle := fun _ => rfl
    busy := fun hp => absurd rfl hp }

theorem Inv.refuse (h : s.Inv) : s.refuse.Inv :=
  { h with
    dataWidth := fun r hr => by cases hr; exact Nat.two_pow_pos _
    faultIdle := fun _ => rfl
    busy := fun hp => absurd rfl hp }

theorem Inv.raiseFault (h : s.Inv) (info : FaultInfo) : (s.raiseFault info).Inv :=
  { h with
    dataWidth := fun r hr => by cases hr; exact Nat.two_pow_pos _
    faultIdle := fun _ => rfl
    busy := fun hp => absurd rfl hp }

/-- A command that goes on to rest elsewhere (at a loop test, or at the call it is stuck at) has not responded, and runs
with `FAULT` 0. -/
theorem Inv.withPhase (h : s.Inv) (p : Phase) (hf : s.fault = false) (hr : s.response = none) :
    { s with phase := p }.Inv :=
  { h with
    faultIdle := fun hf' => by rw [hf] at hf'; cases hf'
    busy := fun _ => hr }

theorem Inv.hang (h : s.Inv) (c : Call) (hf : s.fault = false) (hr : s.response = none) : (s.hang c).Inv :=
  h.withPhase (.stuck c) hf hr

theorem Inv.fits (h : s.Inv) : Fits s.build s := ⟨rfl, h.worldFits, h.irqWidth⟩

/-- What a body leaves alone, with the widths and the canonical memory it keeps, is the whole invariant. -/
theorem Inv.reached {t : State} (h : s.Inv) (k : ReachedInBody s t) : t.Inv := by
  obtain ⟨hb, hw, hi⟩ := k _ (keptByBody_fits s.build) h.fits
  have hs := k.sameSetting
  exact
    { memory := k _ keptByBody_memory h.memory
      bpNodup := by rw [hs.bp]; exact h.bpNodup
      bpBound := by rw [hs.bp, hb]; exact h.bpBound
      bpWidth := by rw [hs.bp, hb]; exact h.bpWidth
      irqWidth := by rw [hb]; exact hi
      worldFits := by rw [hb]; exact hw
      dataWidth := by rw [hs.response, hb]; exact h.dataWidth
      w0Memory := by rw [hb]; exact h.w0Memory
      w0Fits := by rw [hb]; exact h.w0Fits
      w0Display := by rw [hb]; exact h.w0Display
      faultIdle := by rw [hs.fault, hs.phase]; exact h.faultIdle
      busy := by rw [hs.phase, hs.response]; exact h.busy }

theorem Inv.log (h : s.Inv) (op : MicroOp) : (s.log op).Inv := { h with }

theorem Inv.pollInput (h : s.Inv) : s.pollInput.Inv := { h with }

theorem Inv.setKeyinput (h : s.Inv) (k : KeyState) : (s.setKeyinput k).Inv :=
  { h with worldFits := World.fits_of_device s.world s.build _ _ rfl rfl h.worldFits }

theorem Inv.withCaller (h : s.Inv) (rest : List CallerAction) : { s with caller := rest }.Inv := { h with }

theorem Inv.callerSetsWorld (h : s.Inv) (cpu : Cpu) (ws : List Host.Cell) (io : IoAggregate) :
    (s.callerSetsWorld cpu ws io).Inv :=
  { h with
    memory := Memory.writes_wf ws _ h.memory
    worldFits := World.fits_of_atWidths s.build _ cpu io rfl rfl }

/-- The reset state of a legal build keeps the invariant. -/
theorem Inv.callerResets (h : s.Inv) : s.callerResets.Inv where
  memory := h.w0Memory
  bpNodup := List.nodup_nil
  bpBound _ _ := Nat.zero_le _
  bpWidth _ ha := absurd ha List.not_mem_nil
  irqWidth := Nat.two_pow_pos _
  worldFits := h.w0Fits
  dataWidth _ hr := by cases hr
  w0Memory := h.w0Memory
  w0Fits := h.w0Fits
  w0Display := h.w0Display
  faultIdle _ := rfl
  busy hp := absurd rfl hp

/-- One entry more, new, of the build's width, and while the set is not full. -/
theorem Inv.addBp (h : s.Inv) {a : Addr} (ha : a ∉ s.bp) (hw : a < 2 ^ s.build.addrW)
    (hm : s.build.bpMax ≠ some s.bp.length) : { s with bp := s.bp ++ [a] }.Inv :=
  { h with
    bpNodup := List.nodup_append.mpr
      ⟨h.bpNodup, List.nodup_singleton a, fun x hx y hy e => ha (List.mem_singleton.mp hy ▸ e ▸ hx)⟩
    bpBound := fun m hb => by
      have hle := h.bpBound m hb
      have hne : s.bp.length ≠ m := fun e => hm (e ▸ hb)
      show (s.bp ++ [a]).length ≤ m
      rw [List.length_append, List.length_singleton]
      omega
    bpWidth := fun x hx => by
      rcases List.mem_append.mp hx with hx | hx
      · exact h.bpWidth x hx
      · exact List.mem_singleton.mp hx ▸ hw }

/-! ### The invariant and the commands -/

theorem Inv.exec_step (h : s.Inv) : ∃ t, exec .step s = .next t ∧ t.Inv := by
  cases hf : s.fault with
  | true => exact ⟨_, exec_of_fault s _ hf, h.begin.refuse⟩
  | false =>
    rcases exec_step_reached s hf with ⟨t, e, k⟩ | ⟨t, info, e, k⟩ | ⟨t, c, e, k⟩
    · exact ⟨_, e, (h.begin.reached k).respond _ (Nat.two_pow_pos _)⟩
    · exact ⟨_, e, (h.begin.reached k).raiseFault info⟩
    · exact ⟨_, e, (h.begin.reached k).hang c (k.sameSetting.fault.trans hf) k.sameSetting.response⟩

/-- Where the two calls of F1 are made. -/
theorem inputCalls_cases {u : State} {c : Call} (hu : (u, c) ∈ s.inputCalls) : u = s ∨ u = s.pollInput := by
  simp only [State.inputCalls, List.mem_cons, Prod.mk.injEq, List.not_mem_nil, or_false] at hu
  exact hu.imp And.left And.left

theorem Inv.inputCalls (h : s.Inv) {u : State} {c : Call} (hu : (u, c) ∈ s.inputCalls) : u.Inv := by
  rcases inputCalls_cases hu with rfl | rfl
  · exact h
  · exact h.pollInput

/-- Neither call of F1 sets the latch or responds. -/
theorem inputCalls_fault_response {u : State} {c : Call} (hu : (u, c) ∈ s.inputCalls) :
    u.fault = s.fault ∧ u.response = s.response := by
  rcases inputCalls_cases hu with rfl | rfl <;> exact ⟨rfl, rfl⟩

theorem Inv.exec_frame (h : s.Inv) : ∃ t, exec .frame s = .next t ∧ t.Inv := by
  cases hf : s.fault with
  | true => exact ⟨_, exec_of_fault s _ hf, h.begin.refuse⟩
  | false =>
    rcases exec_frame_cases s hf with ⟨-, e⟩ | ⟨pre, u, c, post, -, hc, -, -, e⟩
    · exact ⟨_, e, (h.begin.pollInput.setKeyinput _).withPhase .f2 hf rfl⟩
    · have hu := mem_of_split hc
      obtain ⟨hfu, hru⟩ := inputCalls_fault_response hu
      exact ⟨_, e, (h.begin.inputCalls hu).hang c (hfu.trans hf) hru⟩

theorem Inv.exec_addBreakpoint (h : s.Inv) {a : Addr} (hw : a < 2 ^ s.build.addrW) :
    ∃ t, exec (.addBreakpoint a) s = .next t ∧ t.Inv := by
  cases hf : s.fault with
  | true => exact ⟨_, exec_of_fault s _ hf, h.begin.refuse⟩
  | false =>
    by_cases ha : a ∈ s.bp
    · exact ⟨_, exec_addBreakpoint_duplicate s a hf ha, h.begin.respond _ (Nat.two_pow_pos _)⟩
    · by_cases hm : s.build.bpMax = some s.bp.length
      · exact ⟨_, exec_addBreakpoint_full s a hf ha hm, h.begin.respond _ (Nat.two_pow_pos _)⟩
      · exact ⟨_, exec_addBreakpoint_new s a hf ha hm, (h.begin.addBp ha hw hm).respond _ (atWidth_lt _ _)⟩

theorem Inv.nextPc_lt (h : s.Inv) : s.nextPc < 2 ^ s.build.addrW := by
  obtain ⟨-, hn, -⟩ := (World.fits_iff _ _).mp h.worldFits
  exact hn

theorem Inv.exec_checkBreakpoint (h : s.Inv) : ∃ t, exec .checkBreakpoint s = .next t ∧ t.Inv := by
  cases hf : s.fault with
  | true => exact ⟨_, exec_of_fault s _ hf, h.begin.refuse⟩
  | false =>
    cases hr : s.begin.returns .cpuNextPc with
    | false => exact ⟨_, exec_checkBreakpoint_stuck s hf hr, h.begin.hang _ hf rfl⟩
    | true =>
      by_cases hm : s.nextPc ∈ s.bp
      · exact ⟨_, exec_checkBreakpoint_hit s hf hr hm, (h.begin.log _).respond _ h.nextPc_lt⟩
      · exact ⟨_, exec_checkBreakpoint_miss s hf hr hm, (h.begin.log _).respond _ (Nat.two_pow_pos _)⟩

theorem Inv.exec (h : s.Inv) {i : Instr} (hw : i.WellFormed s.build.addrW) : ∃ t, exec i s = .next t ∧ t.Inv := by
  cases i with
  | step => exact h.exec_step
  | frame => exact h.exec_frame
  | addBreakpoint a => exact h.exec_addBreakpoint hw
  | checkBreakpoint => exact h.exec_checkBreakpoint

/-! ### The invariant and a step -/

theorem Inv.step_idle (h : s.Inv) (hp : s.phase = .idle) : ∃ t, step s = .next t ∧ t.Inv := by
  rcases step_idle_cases s hp with e | ⟨w, rest, -, e⟩ | ⟨cpu, ws, io, rest, -, e⟩ | ⟨rest, -, e⟩
  · exact ⟨s, e, h⟩
  · obtain ⟨t, e', ht⟩ := (h.withCaller rest).exec (decode_wellFormed s.build.addrW (BitVec.ofNat _ w))
    exact ⟨t, e.trans e', ht⟩
  · exact ⟨_, e, (h.withCaller rest).callerSetsWorld cpu ws io⟩
  · exact ⟨_, e, (h.withCaller rest).callerResets⟩

theorem inLoop_phase (h : s.inLoop = true) : s.phase ≠ .idle := by
  rintro hp
  simp [State.inLoop, hp] at h

theorem Inv.fault_of_inLoop (h : s.Inv) (hl : s.inLoop = true) : s.fault = false :=
  Bool.eq_false_iff.mpr fun hf => inLoop_phase hl (h.faultIdle hf)

theorem Inv.step_loop (h : s.Inv) (hl : s.inLoop = true) : ∃ t, step s = .next t ∧ t.Inv := by
  have hf := h.fault_of_inLoop hl
  have hr := h.busy (inLoop_phase hl)
  have hlog : s.readLevel.Inv := h.log _
  rcases step_loop_cases s hl with ⟨-, e⟩ | ⟨-, -, -, -, e⟩ | ⟨-, -, -, -, e⟩ | ⟨-, -, -, -, e⟩
  · exact ⟨_, e, h.hang _ hf hr⟩
  · exact ⟨_, e, hlog.withPhase .f3 hf hr⟩
  · exact ⟨_, e, hlog.respond _ (Nat.two_pow_pos _)⟩
  · refine ⟨_, e, ?_⟩
    rcases stepBody_reached s.readLevel with ⟨t, e, k⟩ | ⟨t, info, e, k⟩ | ⟨t, c, e, k⟩ <;> rw [e]
    · exact hlog.reached k
    · exact (hlog.reached k).raiseFault info
    · exact (hlog.reached k).hang c (k.sameSetting.fault.trans hf) (k.sameSetting.response.trans hr)

theorem Inv.step (h : s.Inv) : ∃ t, step s = .next t ∧ t.Inv := by
  rcases phase_cases s with hp | hl | ⟨c, hc⟩
  · exact h.step_idle hp
  · exact h.step_loop hl
  · exact ⟨s, step_stuck s hc, h⟩

end

end State

/-- Settles O43: the caller's turn, a loop test and a stuck command each keep the invariant (`State.Inv.step`); a body keeps
it because it keeps the widths and the canonical memory and leaves the rest alone (`State.Inv.reached`). -/
theorem everyStepKeepsTheInvariant : Obligations.EveryStepKeepsTheInvariant := by
  unfold Obligations.EveryStepKeepsTheInvariant
  intro s t h e
  obtain ⟨u, e', hu⟩ := h.step
  cases e.symm.trans e'
  exact hu

end Sys2Proof.Machine
end

section
/-!
SUPPORT. The fault latch along every way of a step (spec/10_state.md R19, spec/60_exceptions.md R221, R236), and the
statement about it.
-/

namespace Sys2Proof.Machine

namespace State

/-- `FAULT` and `FAULT_INFO` are as they were. -/
def LatchKept (s t : State) : Prop := t.fault = s.fault ∧ t.faultInfo = s.faultInfo

/-- `FAULT` is set, and the response says so with the value `FAULT_INFO` holds. -/
def FaultRaised (t : State) : Prop :=
  t.fault = true ∧ t.response = some { status := .fault, data := 0, info := t.faultInfo }

theorem FaultRaised.status {t : State} (h : FaultRaised t) : t.status = some .fault := by
  obtain ⟨-, hr⟩ := h
  rw [State.status, hr]
  rfl

theorem faultRaised_raiseFault (t : State) (info : FaultInfo) : FaultRaised (t.raiseFault info) := ⟨rfl, rfl⟩

theorem ReachedInBody.latchKept {s t : State} (h : ReachedInBody s t) : LatchKept s t :=
  ⟨h.sameSetting.fault, h.sameSetting.faultInfo⟩

variable (s : State)

theorem stepBody_latch : LatchKept s s.stepBody.state ∨ FaultRaised s.stepBody.state := by
  rcases stepBody_reached s with ⟨t, e, k⟩ | ⟨t, info, e, k⟩ | ⟨t, c, e, k⟩ <;> rw [e]
  · exact .inl k.latchKept
  · exact .inr (faultRaised_raiseFault t info)
  · exact .inl k.latchKept

theorem exec_step_latch (hf : s.fault = false) : ∃ t, exec .step s = .next t ∧ (LatchKept s t ∨ FaultRaised t) := by
  rcases exec_step_reached s hf with ⟨t, e, k⟩ | ⟨t, info, e, -⟩ | ⟨t, c, e, k⟩
  · exact ⟨_, e, .inl k.latchKept⟩
  · exact ⟨_, e, .inr (faultRaised_raiseFault t info)⟩
  · exact ⟨_, e, .inl k.latchKept⟩

theorem exec_frame_latch (hf : s.fault = false) : ∃ t, exec .frame s = .next t ∧ LatchKept s t := by
  rcases exec_frame_cases s hf with ⟨-, e⟩ | ⟨pre, u, c, post, -, hc, -, -, e⟩
  · exact ⟨_, e, rfl, rfl⟩
  · rcases inputCalls_cases (mem_of_split hc) with rfl | rfl <;> exact ⟨_, e, rfl, rfl⟩

theorem exec_addBreakpoint_latch (a : Addr) (hf : s.fault = false) :
    ∃ t, exec (.addBreakpoint a) s = .next t ∧ LatchKept s t := by
  by_cases h : a ∈ s.bp
  · exact ⟨_, exec_addBreakpoint_duplicate s a hf h, rfl, rfl⟩
  · by_cases k : s.build.bpMax = some s.bp.length
    · exact ⟨_, exec_addBreakpoint_full s a hf h k, rfl, rfl⟩
    · exact ⟨_, exec_addBreakpoint_new s a hf h k, rfl, rfl⟩

theorem exec_checkBreakpoint_latch (hf : s.fault = false) :
    ∃ t, exec .checkBreakpoint s = .next t ∧ LatchKept s t := by
  cases hr : s.begin.returns .cpuNextPc with
  | false => exact ⟨_, exec_checkBreakpoint_stuck s hf hr, rfl, rfl⟩
  | true =>
    by_cases h : s.nextPc ∈ s.bp
    · exact ⟨_, exec_checkBreakpoint_hit s hf hr h, rfl, rfl⟩
    · exact ⟨_, exec_checkBreakpoint_miss s hf hr h, rfl, rfl⟩

/-- A command with `FAULT = 0` keeps the latch or raises the fault. -/
theorem exec_latch (i : Instr) (hf : s.fault = false) :
    ∃ t, exec i s = .next t ∧ (LatchKept s t ∨ FaultRaised t) := by
  cases i with
  | step => exact exec_step_latch s hf
  | frame => exact (exec_frame_latch s hf).imp fun _ h => h.imp_right .inl
  | addBreakpoint a => exact (exec_addBreakpoint_latch s a hf).imp fun _ h => h.imp_right .inl
  | checkBreakpoint => exact (exec_checkBreakpoint_latch s hf).imp fun _ h => h.imp_right .inl

theorem step_loop_latch (hl : s.inLoop = true) : ∃ t, step s = .next t ∧ (LatchKept s t ∨ FaultRaised t) := by
  rcases step_loop_cases s hl with ⟨-, e⟩ | ⟨-, -, -, -, e⟩ | ⟨-, -, -, -, e⟩ | ⟨-, -, -, -, e⟩
  · exact ⟨_, e, .inl ⟨rfl, rfl⟩⟩
  · exact ⟨_, e, .inl ⟨rfl, rfl⟩⟩
  · exact ⟨_, e, .inl ⟨rfl, rfl⟩⟩
  · exact ⟨_, e, stepBody_latch s.readLevel⟩

/-- A step with `FAULT = 0` leaves it 0 or raises the fault. -/
theorem step_latch (hf : s.fault = false) : ∃ t, step s = .next t ∧ (t.fault = false ∨ FaultRaised t) := by
  have of_kept : ∀ {u t : State}, u.fault = false → LatchKept u t ∨ FaultRaised t → t.fault = false ∨ FaultRaised t :=
    fun hu h => h.imp_left fun k => k.1.trans hu
  rcases phase_cases s with hp | hl | ⟨c, hc⟩
  · rcases step_idle_cases s hp with e | ⟨w, rest, -, e⟩ | ⟨_, _, _, _, -, e⟩ | ⟨_, -, e⟩
    · exact ⟨s, e, .inl hf⟩
    · obtain ⟨t, e', h⟩ := exec_latch { s with caller := rest } (decode s.build.addrW (BitVec.ofNat _ w)) hf
      exact ⟨t, e.trans e', of_kept hf h⟩
    · exact ⟨_, e, .inl hf⟩
    · exact ⟨_, e, .inl rfl⟩
  · exact (step_loop_latch s hl).imp fun _ h => h.imp_right (of_kept hf)
  · exact ⟨s, step_stuck s hc, .inl hf⟩

end State

open State

/-- Settles O12: a step with `FAULT = 0` raises the fault or leaves the latch 0 (`step_latch`); with `FAULT = 1` the
sequencer is idle, by the invariant, and only the reset changes the latch (`step_keeps_fault`, `step_reset`). -/
theorem faultLatchIsSetByAFaultAndClearedByReset : Obligations.FaultLatchIsSetByAFaultAndClearedByReset := by
  unfold Obligations.FaultLatchIsSetByAFaultAndClearedByReset
  intro s t hinv e
  refine ⟨fun hf ht => ?set, fun hf hn => ?kept, fun hr => ?cleared⟩
  case set =>
    obtain ⟨u, e', h⟩ := step_latch s hf
    cases e.symm.trans e'
    rcases h with h | ⟨-, hr⟩
    · rw [h] at ht; cases ht
    · exact hr
  case kept =>
    obtain ⟨u, e', h⟩ := step_keeps_fault s (hinv.faultIdle hf) hf hn
    cases e.symm.trans e'
    exact h
  case cleared =>
    obtain ⟨rest, e'⟩ := step_reset s hr
    cases e.symm.trans e'
    rfl

end Sys2Proof.Machine
end

section
/-!
SUPPORT. Positions in the breakpoint set (spec/42_breakpoints.md R160, R164 to R166), and the statements about them.
-/

namespace Sys2Proof.Machine

/-- Numbers below `n` without repeats are at most `n`: the pigeonhole behind R165. -/
theorem length_le_of_nodup_lt {xs : List Nat} {n : Nat} (hd : xs.Nodup) (h : ∀ a ∈ xs, a < n) : xs.length ≤ n := by
  have hsub : xs ⊆ List.range n := fun a ha => List.mem_range.mpr (h a ha)
  simpa using (hd.subperm hsub).length_le

namespace State

variable (s : State)

/-- While some address is not in the set, its length fits the `data` field (R165). -/
theorem Inv.bp_length_lt {s : State} (h : s.Inv) {a : Addr} (ha : a ∉ s.bp) (hw : a < 2 ^ s.build.addrW) :
    s.bp.length < 2 ^ s.build.addrW := by
  have hle : (a :: s.bp).length ≤ 2 ^ s.build.addrW :=
    length_le_of_nodup_lt (List.nodup_cons.mpr ⟨ha, h.bpNodup⟩) fun x hx => by
      rcases List.mem_cons.mp hx with rfl | hx
      · exact hw
      · exact h.bpWidth x hx
  exact hle

/-- An addition is answered `OK_DATA` only when it appends. -/
theorem exec_addBreakpoint_okData {a : Addr} {t : State} (e : exec (.addBreakpoint a) s = .next t)
    (hs : t.status = some .okData) : a ∉ s.bp ∧
      t = { s.begin with bp := s.bp ++ [a] }.respond .okData (positionData s.build.addrW s.bp) := by
  cases hf : s.fault with
  | true =>
    rw [exec_of_fault s _ hf] at e
    cases e
    cases hs
  | false =>
    by_cases h : a ∈ s.bp
    · rw [exec_addBreakpoint_duplicate s a hf h] at e
      cases e
      cases hs
    · by_cases k : s.build.bpMax = some s.bp.length
      · rw [exec_addBreakpoint_full s a hf h k] at e
        cases e
        cases hs
      · rw [exec_addBreakpoint_new s a hf h k] at e
        cases e
        exact ⟨h, rfl⟩

end State

open State

/-- Settles O39: the position answered is the old length at `ADDR_W` bits, which the pigeonhole leaves as it is
(`State.Inv.bp_length_lt`), and the address is appended there. -/
theorem answeredPositionIsWhereTheAddressStands : Obligations.AnsweredPositionIsWhereTheAddressStands := by
  unfold Obligations.AnsweredPositionIsWhereTheAddressStands
  intro a s t hinv hw e hs
  obtain ⟨ha, rfl⟩ := exec_addBreakpoint_okData s e hs
  have hpos : positionData s.build.addrW s.bp = s.bp.length := atWidth_of_lt (hinv.bp_length_lt ha hw)
  refine ⟨_, rfl, hpos, ?_, fun j hj => List.getElem?_append_left hj⟩
  show (s.bp ++ [a])[positionData s.build.addrW s.bp]? = some a
  rw [hpos]
  exact List.getElem?_concat_length

/-- Settles O41: the first addition appends, the second finds its own entry, and the check reads the same next-instruction
address, since no breakpoint command touches the world. -/
theorem breakpointAddedTwiceThenChecked : Obligations.BreakpointAddedTwiceThenChecked := by
  unfold Obligations.BreakpointAddedTwiceThenChecked
  intro a s hf hr ha hm
  have hroom : s.build.bpMax ≠ some s.bp.length := by rw [hm]; exact nofun
  have hadded : a ∈ s.bp ++ [a] := List.mem_append_right _ (List.mem_singleton.mpr rfl)
  refine ⟨_, _, exec_addBreakpoint_new s a hf ha hroom, rfl, exec_addBreakpoint_duplicate _ a hf hadded, rfl, rfl, ?_⟩
  by_cases hb : s.nextPc ∈ s.bp ++ [a]
  · refine ⟨_, exec_checkBreakpoint_hit _ hf hr hb, fun h => ⟨congrArg some h, rfl⟩, fun hne hold => ?_⟩
    rcases List.mem_append.mp hb with h | h
    · exact absurd h hold
    · exact absurd (List.mem_singleton.mp h) hne
  · exact ⟨_, exec_checkBreakpoint_miss _ hf hr hb, fun h => absurd (h ▸ hadded) hb, fun _ _ => rfl⟩

end Sys2Proof.Machine
end

section
/-!
SUPPORT. Where a command is stuck (spec/93_implementation_defined.md U5, spec/43_collaborator_ops.md R180): at the first of
its calls that does not return; and the statements about it.
-/

namespace Sys2Proof.Machine

/-- Calls of which the first that does not return is `c`, made in `u`, are stuck there. -/
theorem Exit.ofCalls_stuck {pre post : List (State × Call)} {u : State} {c : Call} (e : Exit)
    (hpre : allReturn pre = true) (hu : u.returns c = false) :
    Exit.ofCalls (pre ++ (u, c) :: post) e = .stuck (u.hang c) := by
  rw [Exit.ofCalls_append, Exit.ofCalls_of_returns _ hpre, Exit.ofCalls, if_neg (Bool.eq_false_iff.mp hu)]

namespace State

variable (s : State)

section

variable {s} {pre post : List (State × Call)} {u : State} {c : Call}

theorem stepBody_of_stuck (hc : s.bodyCalls = pre ++ (u, c) :: post) (hpre : allReturn pre = true)
    (hu : u.returns c = false) : s.stepBody = .stuck (u.hang c) := by
  rw [stepBody_eq, hc, Exit.ofCalls_stuck _ hpre hu]

theorem exec_step_of_stuck (hf : s.fault = false) (hc : s.begin.bodyCalls = pre ++ (u, c) :: post)
    (hpre : allReturn pre = true) (hu : u.returns c = false) : exec .step s = .next (u.hang c) := by
  rw [exec_step_eq s hf, stepBody_of_stuck hc hpre hu]
  rfl

theorem exec_frame_of_stuck (hf : s.fault = false) (hc : s.begin.inputCalls = pre ++ (u, c) :: post)
    (hpre : allReturn pre = true) (hu : u.returns c = false) : exec .frame s = .next (u.hang c) := by
  show execFrame s = _
  rw [execFrame, hf, refreshInput_eq, hc, Exit.ofCalls_stuck _ hpre hu]
  rfl

end

/-- The loop test runs a body exactly where `loopsOn` says so. -/
theorem step_of_loopsOn (hl : s.inLoop = true) (hr : s.returns .displayState = true) (ho : s.loopsOn = true) :
    step s = .next s.readLevel.stepBody.state := by
  rcases step_loop_cases s hl with ⟨hn, -⟩ | ⟨-, -, -, hn, -⟩ | ⟨-, -, -, hn, -⟩ | ⟨-, -, -, -, e⟩
  · rw [hr] at hn; cases hn
  · rw [ho] at hn; cases hn
  · rw [ho] at hn; cases hn
  · exact e

theorem step_of_levelStuck (hl : s.inLoop = true) (hr : s.returns .displayState = false) :
    step s = .next (s.hang .displayState) := by
  rcases step_loop_cases s hl with ⟨-, e⟩ | ⟨hn, -⟩ | ⟨hn, -⟩ | ⟨hn, -⟩
  · exact e
  all_goals rw [hr] at hn; cases hn

/-- The command `t` has come to is not stuck, and, but for a `FRAME`, has responded. -/
def Answered (i : Instr) (t : State) : Prop :=
  (∀ c, t.phase ≠ .stuck c) ∧ (i ≠ .frame → t.phase = .idle ∧ t.response.isSome = true)

theorem answered_of_idle {i : Instr} {t : State} (hp : t.phase = .idle) (hr : t.response.isSome = true) :
    Answered i t :=
  ⟨fun c h => by (rw [hp] at h; cases h), fun _ => ⟨hp, hr⟩⟩

/-- A command whose calls all return is not stuck. -/
theorem exec_of_returns (i : Instr) (hf : s.fault = false) (h : s.commandReturns i = true) :
    ∃ t, exec i s = .next t ∧ Answered i t := by
  cases i with
  | step =>
    cases hc : s.begin.completes with
    | true => exact ⟨_, exec_step_of_completes s hf h hc, answered_of_idle rfl rfl⟩
    | false =>
      obtain ⟨info, hx⟩ := faultsWith_of_not_completes _ hc
      exact ⟨_, exec_step_of_faultsWith s hf h hx, answered_of_idle rfl rfl⟩
  | frame => exact ⟨_, exec_frame_of_inputReturns s hf h, fun _ => nofun, fun hne => absurd rfl hne⟩
  | addBreakpoint a =>
    by_cases ha : a ∈ s.bp
    · exact ⟨_, exec_addBreakpoint_duplicate s a hf ha, answered_of_idle rfl rfl⟩
    · by_cases k : s.build.bpMax = some s.bp.length
      · exact ⟨_, exec_addBreakpoint_full s a hf ha k, answered_of_idle rfl rfl⟩
      · exact ⟨_, exec_addBreakpoint_new s a hf ha k, answered_of_idle rfl rfl⟩
  | checkBreakpoint =>
    by_cases hb : s.nextPc ∈ s.bp
    · exact ⟨_, exec_checkBreakpoint_hit s hf h hb, answered_of_idle rfl rfl⟩
    · exact ⟨_, exec_checkBreakpoint_miss s hf h hb, answered_of_idle rfl rfl⟩

theorem ne_stuck_of_inLoop {s : State} (hl : s.inLoop = true) (c : Call) : s.phase ≠ .stuck c := by
  intro h
  simp [State.inLoop, h] at hl

/-- A body whose calls all return is not stuck. -/
theorem loopBody_of_returns (hl : s.inLoop = true) (hb : s.readLevel.bodyReturns = true) (c : Call) :
    s.readLevel.stepBody.state.phase ≠ .stuck c := by
  cases hc : s.readLevel.completes with
  | true =>
    obtain ⟨-, hp, -⟩ := loopBody_of_completes s hb hc
    rw [hp]
    exact ne_stuck_of_inLoop hl c
  | false =>
    obtain ⟨info, hx⟩ := faultsWith_of_not_completes _ hc
    rw [loopBody_of_faultsWith s hb hx]
    exact nofun

/-- A loop test whose calls all return is not stuck. -/
theorem step_of_loopReturns (hl : s.inLoop = true) (h : s.loopReturns = true) :
    ∃ t, step s = .next t ∧ ∀ c, t.phase ≠ .stuck c := by
  obtain ⟨hd, hb⟩ := loopReturns_spec s h
  rcases step_loop_cases s hl with ⟨hn, -⟩ | ⟨-, -, -, -, e⟩ | ⟨-, -, -, -, e⟩ | ⟨-, ho, -, -, e⟩
  · rw [hd] at hn; cases hn
  · exact ⟨_, e, fun _ => nofun⟩
  · exact ⟨_, e, fun _ => nofun⟩
  · exact ⟨_, e, loopBody_of_returns s hl (hb ho)⟩

/-! ### Runs of a machine that has stopped moving -/

theorem core_run_succ {n : Nat} {s t : State} (h : step s = .next t) :
    Sys2Proof.core.run (n + 1) s = Sys2Proof.core.run n t := by
  have h : Sys2Proof.core.step s = .next t := h
  simp only [Host.Core.run, h]

theorem core_run_of_fixed (h : step s = .next s) (n : Nat) : Sys2Proof.core.run n s = .next s := by
  induction n with
  | zero => rfl
  | succ n ih => rw [core_run_succ h, ih]

end State

open State

/-! ### The statements -/

/-- Settles O47: a body and F1 are their calls in order (`stepBody_eq`, `refreshInput_eq`), so they are stuck at the first
that does not return; and where all return the command has come to its end (`exec_of_returns`). -/
theorem commandIsStuckAtTheFirstCallThatDoesNotReturn : Obligations.CommandIsStuckAtTheFirstCallThatDoesNotReturn := by
  unfold Obligations.CommandIsStuckAtTheFirstCallThatDoesNotReturn
  refine ⟨fun s pre post u c hf hpre hu => ⟨fun hc => ?body, fun hc => ?input⟩,
    fun s hf hr => exec_checkBreakpoint_stuck s hf hr, fun i s hf h => exec_of_returns s i hf h⟩
  case body => exact ⟨exec_step_of_stuck hf hc hpre hu, (reachedInBody_stuck _ hc).sameSetting.response⟩
  case input =>
    obtain ⟨-, hr⟩ := inputCalls_fault_response (mem_of_split hc)
    exact ⟨exec_frame_of_stuck hf hc hpre hu, hr⟩

/-- Settles O48: a loop test is its read of the level and then its body, stuck at the first call that does not return; and
a step leaves a stuck command as it is. -/
theorem frameIsStuckAtTheFirstCallThatDoesNotReturn : Obligations.FrameIsStuckAtTheFirstCallThatDoesNotReturn := by
  unfold Obligations.FrameIsStuckAtTheFirstCallThatDoesNotReturn
  refine ⟨fun s hl hr => step_of_levelStuck s hl hr, fun s pre post u c hl ho hr hc hpre hu => ?body,
    fun s hl h => step_of_loopReturns s hl h, fun s c n hp => ?stuck⟩
  case body => rw [step_of_loopsOn s hl hr ho, stepBody_of_stuck hc hpre hu]; rfl
  case stuck => exact ⟨core_run_of_fixed s (step_stuck s hp) n, fun h => h.busy (by rw [hp]; exact nofun)⟩

end Sys2Proof.Machine
end

section
/-!
SUPPORT. The shape of a `STEP`'s trace (spec/40_step.md R120): which shape a body gives (`State.bodyShape`), that a trace
has one shape only, how many micro-operations of each kind a shape has, and the statements that follow from the shape.
-/

namespace Sys2Proof.Machine

/-! ### A trace tells its shape -/

/-- The shape read off a trace: who used the cycle, whether the entry routine ran, what the halt test answered, and
whether the instruction faulted. -/
def shapeOfTrace : List MicroOp → Shape
  | _ :: .dmaTryWork _ _ true :: _ => .dmaTook
  | _ :: _ :: .icPending false :: .ioHaltRunning false :: _ => .idle
  | _ :: _ :: .icPending false :: _ :: .cpuStep .ok :: _ => .run
  | _ :: _ :: .icPending false :: _ => .fault
  | _ :: _ :: _ :: _ :: _ :: .ioHaltRunning false :: _ => .irqIdle
  | _ :: _ :: _ :: _ :: _ :: _ :: .cpuStep .ok :: _ => .irqRun
  | _ => .irqFault

namespace Shape

theorem Trace.shapeOfTrace {c : Nat} {tr : List MicroOp} {sh : Shape} (h : sh.Trace c tr) :
    Machine.shapeOfTrace tr = sh := by
  cases sh with
  | dmaTook | idle | irqIdle => obtain ⟨_, _, -, rfl⟩ := h; rfl
  | run | irqRun => obtain ⟨_, _, _, -, rfl⟩ := h; rfl
  | fault | irqFault => obtain ⟨_, _, rfl⟩ := h; rfl

/-- A trace has one shape only. -/
theorem Trace.unique {c d : Nat} {tr : List MicroOp} {sh sh' : Shape} (h : sh.Trace c tr) (h' : sh'.Trace d tr) :
    sh = sh' := h.shapeOfTrace.symm.trans h'.shapeOfTrace

/-- How a `STEP` of the shape responds. -/
def status : Shape → Status
  | .fault => .fault
  | .irqFault => .fault
  | _ => .ok

theorem status_eq_fault_iff (sh : Shape) : sh.status = .fault ↔ sh = .fault ∨ sh = .irqFault := by
  cases sh <;> decide

theorem status_ok_or_fault (sh : Shape) : sh.status = .ok ∨ sh.status = .fault := by
  cases sh <;> decide

/-- The number of entry routines in a trace of the shape. -/
def entries : Shape → Nat
  | .irqRun => 1
  | .irqFault => 1
  | .irqIdle => 1
  | _ => 0

/-- How often a `STEP` of the shape advances each peripheral and merges. -/
def advances : Shape → Nat
  | .fault => 0
  | .irqFault => 0
  | _ => 1

theorem advances_eq (sh : Shape) : sh.advances = if sh.status = .ok then 1 else 0 := by
  cases sh <;> rfl

/-- Whether the halt test of a `STEP` of the shape answers 0. -/
def halted : Shape → Bool
  | .idle => true
  | .irqIdle => true
  | _ => false

end Shape

/-- The identifier is that of an advance of a peripheral, or of the merge (R70). -/
def IsAdvanceOp (id : BitVec 5) : Prop := id = 7 ∨ id = 8 ∨ id = 12

namespace TailTrace

variable {e : Nat} {i : IrqMask} {tr : List MicroOp}

theorem countOps_entry (h : TailTrace e i tr) : countOps 2 tr = 0 := by
  obtain ⟨j, k, trans, edge, hedge, rfl⟩ := h
  cases hedge <;> rfl

theorem countOps_advance (h : TailTrace e i tr) {id : BitVec 5} (hid : IsAdvanceOp id) : countOps id tr = 1 := by
  obtain ⟨j, k, trans, edge, hedge, rfl⟩ := h
  rcases hid with rfl | rfl | rfl <;> cases hedge <;> rfl

theorem not_mem_haltTest (h : TailTrace e i tr) (b : Bool) : MicroOp.ioHaltRunning b ∉ tr := by
  obtain ⟨j, k, trans, edge, hedge, rfl⟩ := h
  cases hedge <;> simp

/-- The advances and the merge, and no, one or three notifications. -/
theorem length_bounds (h : TailTrace e i tr) : 3 ≤ tr.length ∧ tr.length ≤ 6 := by
  obtain ⟨j, k, trans, edge, hedge, rfl⟩ := h
  cases hedge <;> simp

end TailTrace

namespace Shape

variable {c : Nat} {tr : List MicroOp} {sh : Shape}

theorem Trace.countOps_entry (h : sh.Trace c tr) : countOps 2 tr = sh.entries := by
  cases sh with
  | dmaTook | idle | irqIdle =>
    obtain ⟨i, tail, ht, rfl⟩ := h
    rw [countOps_append, ht.countOps_entry]
    rfl
  | run | irqRun =>
    obtain ⟨i, c', tail, ht, rfl⟩ := h
    rw [countOps_append, ht.countOps_entry]
    rfl
  | fault | irqFault =>
    obtain ⟨i, info, rfl⟩ := h
    rfl

theorem Trace.countOps_advance (h : sh.Trace c tr) {id : BitVec 5} (hid : IsAdvanceOp id) :
    countOps id tr = sh.advances := by
  cases sh with
  | dmaTook | idle | irqIdle =>
    obtain ⟨i, tail, ht, rfl⟩ := h
    rw [countOps_append, ht.countOps_advance hid]
    rcases hid with rfl | rfl | rfl <;> rfl
  | run | irqRun =>
    obtain ⟨i, c', tail, ht, rfl⟩ := h
    rw [countOps_append, ht.countOps_advance hid]
    rcases hid with rfl | rfl | rfl <;> rfl
  | fault | irqFault =>
    obtain ⟨i, info, rfl⟩ := h
    rcases hid with rfl | rfl | rfl <;> rfl

theorem Trace.halted_iff (h : sh.Trace c tr) : MicroOp.ioHaltRunning false ∈ tr ↔ sh.halted = true := by
  cases sh with
  | dmaTook | idle | irqIdle =>
    obtain ⟨i, tail, ht, rfl⟩ := h
    simp [Shape.halted, ht.not_mem_haltTest]
  | run | irqRun =>
    obtain ⟨i, c', tail, ht, rfl⟩ := h
    simp [Shape.halted, ht.not_mem_haltTest]
  | fault | irqFault =>
    obtain ⟨i, info, rfl⟩ := h
    simp [Shape.halted]

theorem Trace.length_bounds (h : sh.Trace c tr) : 5 ≤ tr.length ∧ tr.length ≤ 14 := by
  cases sh with
  | dmaTook | idle | irqIdle =>
    obtain ⟨i, tail, ht, rfl⟩ := h
    have := ht.length_bounds
    simp only [List.length_append, List.length_cons, List.length_nil]
    omega
  | run | irqRun =>
    obtain ⟨i, c', tail, ht, rfl⟩ := h
    have := ht.length_bounds
    simp only [List.length_append, List.length_cons, List.length_nil]
    omega
  | fault | irqFault =>
    obtain ⟨i, info, rfl⟩ := h
    simp

end Shape

namespace State

variable (s : State)

/-! ### The shape a body gives -/

/-- The shape of a body whose calls all return. -/
def bodyShape : Shape :=
  if s.dmaTakes then .dmaTook
  else if s.executes then
    if s.completes then (if s.services then .irqRun else .run) else (if s.services then .irqFault else .fault)
  else if s.services then .irqIdle else .idle

theorem bodyShape_of_dmaTakes (h : s.dmaTakes = true) : s.bodyShape = .dmaTook := if_pos h

theorem bodyShape_of_idles (h : s.idles = true) : s.bodyShape = if s.services then .irqIdle else .idle := by
  obtain ⟨hd, -⟩ := idles_spec s h
  simp [State.bodyShape, hd, executes_of_idles s h]

theorem bodyShape_of_executes (h : s.executes = true) (hok : s.atCpuStep.cpuStepAnswer.result = .ok) :
    s.bodyShape = if s.services then .irqRun else .run := by
  simp [State.bodyShape, executes_dmaTakes s h, h, completes_of_ok s hok]

theorem bodyShape_of_faultsWith {info : FaultInfo} (h : s.faultsWith info) :
    s.bodyShape = if s.services then .irqFault else .fault := by
  have hc := completes_of_faultsWith s h
  obtain ⟨hx, -⟩ := h
  simp [State.bodyShape, executes_dmaTakes s hx, hx, hc]

theorem shape_of_faultsWith {info : FaultInfo} (h : s.begin.faultsWith info) :
    Shape.Trace s.cycles s.begin.atCpuStep.cpuStep.trace (if s.begin.services then .irqFault else .fault) := by
  obtain ⟨hx, hr⟩ := h
  rw [trace_cpuStep s (executes_dmaTakes _ hx), hr]
  cases s.begin.services <;> exact ⟨_, info, rfl⟩

/-- The trace and the response of a `STEP` whose calls all return are those of its body's shape. -/
theorem exec_step_shape (hf : s.fault = false) (hr : s.begin.bodyReturns = true) :
    ∃ t, exec .step s = .next t ∧ Shape.Trace s.cycles t.trace s.begin.bodyShape ∧
      t.status = some s.begin.bodyShape.status := by
  rcases arbiter_cases s.begin with ⟨hd, -, -, -, hc, -⟩ | ⟨-, -, hi, hc, -⟩ | ⟨-, hx, -, hok, hc, -⟩ |
    ⟨info, -, hx, -, hres, -⟩
  · rw [bodyShape_of_dmaTakes _ hd]
    exact ⟨_, exec_step_of_completes s hf hr hc, shape_of_dmaTakes s hd, rfl⟩
  · rw [bodyShape_of_idles _ hi]
    exact ⟨_, exec_step_of_completes s hf hr hc, shape_of_idles s hi, by cases s.begin.services <;> rfl⟩
  · rw [bodyShape_of_executes _ hx hok]
    exact ⟨_, exec_step_of_completes s hf hr hc, shape_of_executes s hx hok, by cases s.begin.services <;> rfl⟩
  · have hfw : s.begin.faultsWith info := ⟨hx, hres⟩
    rw [bodyShape_of_faultsWith _ hfw]
    exact ⟨_, exec_step_of_faultsWith s hf hr hfw, shape_of_faultsWith s hfw, by cases s.begin.services <;> rfl⟩

theorem bodyShape_eq_irqIdle_iff : s.bodyShape = .irqIdle ↔ s.services = true ∧ s.idles = true := by
  rcases arbiter_cases s with ⟨hd, hs, -⟩ | ⟨-, -, hi, -⟩ | ⟨-, hx, hi, hok, -⟩ | ⟨info, -, hx, hi, hres, -⟩
  · simp [bodyShape_of_dmaTakes s hd, hs]
  · rw [bodyShape_of_idles s hi]
    cases s.services <;> simp [hi]
  · rw [bodyShape_of_executes s hx hok]
    cases s.services <;> simp [hi]
  · rw [bodyShape_of_faultsWith s ⟨hx, hres⟩]
    cases s.services <;> simp [hi]

theorem bodyShape_entries_of_services (h : s.services = true) : s.bodyShape.entries = 1 := by
  rcases arbiter_cases s with ⟨-, hs, -⟩ | ⟨-, -, hi, -⟩ | ⟨-, hx, -, hok, -⟩ | ⟨info, -, hx, -, hres, -⟩
  · rw [h] at hs; cases hs
  · rw [bodyShape_of_idles s hi, h]; rfl
  · rw [bodyShape_of_executes s hx hok, h]; rfl
  · rw [bodyShape_of_faultsWith s ⟨hx, hres⟩, h]; rfl

/-- A `STEP` that responds `OK` or `FAULT` is one with `FAULT = 0` whose calls have all returned. -/
theorem exec_step_answered {t : State} (e : exec .step s = .next t) (h : t.status = some .ok ∨ t.status = some .fault) :
    s.fault = false ∧ s.begin.bodyReturns = true := by
  cases hf : s.fault with
  | true =>
    rw [exec_of_fault s _ hf] at e
    cases e
    rcases h with h | h <;> cases h
  | false =>
    refine ⟨rfl, ?_⟩
    rcases exec_step_ends s hf with ⟨hr, -⟩ | ⟨_, hr, -⟩ | ⟨pre, u, c, post, -, hc, -, -, e'⟩
    · exact hr
    · exact hr
    · cases e.symm.trans e'
      have hn : u.response = none := (reachedInBody_stuck _ hc).sameSetting.response
      simp [State.status, hn] at h

/-! ### Traces of a `STEP` that may be stuck -/

theorem atHaltTest_trace_length : s.atHaltTest.trace.length ≤ s.trace.length + 5 := by
  cases hp : s.atQuery.pending with
  | true => rw [atHaltTest_pending s hp]; simp [State.atWake, State.atService, State.atQuery, State.atDma]
  | false => rw [atHaltTest_quiet s hp]; simp [State.atQuery, State.atDma]

theorem atTimer_trace_length : s.atTimer.trace.length ≤ s.trace.length + 8 := by
  have hh := atHaltTest_trace_length s
  unfold State.atTimer
  split
  · simp [State.atQuery, State.atDma]
  · split
    · simp only [State.executed, State.atCpuStep, countElapsed_trace, cpuStep_trace, log_trace, List.length_append,
        List.length_cons, List.length_nil]
      omega
    · simp only [State.idled, idleTick_trace, log_trace, List.length_append, List.length_cons, List.length_nil]
      omega

theorem edgeOps_length (trans : Option DisplayState) (fb : FrameBuffer) : (edgeOps trans fb).length ≤ 3 := by
  rcases trans with _ | (_ | _ | _ | _) <;> simp [edgeOps]

/-- Where a body is stuck it has made at most 13 of its calls. -/
theorem call_trace_length {u : State} {c : Call} (h : (u, c) ∈ s.bodyCalls) :
    u.trace.length ≤ s.trace.length + 13 := by
  have hh := atHaltTest_trace_length s
  have ht := atTimer_trace_length s
  have hd : s.atDisplay.displayAdvance.trace.length = s.atTimer.trace.length + 2 := by simp [State.atDisplay]
  rcases bodyCalls_cases s h with rfl | rfl | ⟨-, rfl⟩ | ⟨-, rfl⟩ | ⟨-, rfl⟩ | ⟨-, rfl⟩ | ⟨-, rfl⟩ | ⟨-, rfl⟩ | ⟨-, hu⟩
  · simp
  · simp [State.atDma]
  · simp [State.atQuery, State.atDma]
  · simp [State.atService, State.atQuery, State.atDma]
  · simp [State.atWake, State.atService, State.atQuery, State.atDma]
  · omega
  · simp only [State.atCpuStep, log_trace, List.length_append, List.length_cons, List.length_nil]
    omega
  · simp only [State.atCpuStep, cpuStep_trace, log_trace, List.length_append, List.length_cons, List.length_nil]
    omega
  · rcases hu with rfl | rfl | rfl | rfl | rfl | rfl
    · omega
    · simp only [State.atDisplay, timerAdvance_trace, List.length_append, List.length_cons, List.length_nil]
      omega
    · omega
    · simp only [readFramebuffer_eq, log_trace, List.length_append, List.length_cons, List.length_nil]
      omega
    · simp only [readFramebuffer_eq, present_trace, log_trace, List.length_append, List.length_cons, List.length_nil]
      omega
    · have he := edgeOps_length s.atDisplay.displayAdvance.trans s.atDisplay.displayAdvance.framebuffer
      rw [State.atMerge, edgeDone_trace, List.length_append]
      omega

end State

open State

/-! ### The statements -/

/-- Settles O13: the trace of a `STEP` has its body's shape (`exec_step_shape`), and a trace tells its shape
(`Shape.Trace.unique`); the seventh is that of a body that services and then idles, which a wake that keeps its contract
does not (`services_of_idles`). -/
theorem stepTraceHasExactlyOneShape : Obligations.StepTraceHasExactlyOneShape := by
  unfold Obligations.StepTraceHasExactlyOneShape
  intro s hf hr
  obtain ⟨t, e, htr, hst⟩ := exec_step_shape s hf hr
  have hshape : ∀ sh : Shape, sh.Trace s.cycles t.trace ↔ s.begin.bodyShape = sh :=
    fun sh => ⟨fun h => htr.unique h, fun h => h ▸ htr⟩
  refine ⟨t, e, ⟨_, htr, fun sh h => (htr.unique h).symm⟩, ?fault, ?status, ?seventh, fun hw h => ?excluded⟩
  case fault =>
    rw [hst, Option.some_inj, Shape.status_eq_fault_iff]
    constructor
    · rintro ⟨sh, h, hsh⟩
      rw [htr.unique h]
      exact hsh
    · exact fun h => ⟨_, htr, h⟩
  case status =>
    rw [hst]
    exact s.begin.bodyShape.status_ok_or_fault.imp (congrArg some) (congrArg some)
  case seventh => exact (hshape _).trans (bodyShape_eq_irqIdle_iff s.begin)
  case excluded =>
    obtain ⟨hs, hi⟩ := (bodyShape_eq_irqIdle_iff s.begin).mp ((hshape _).mp h)
    rw [services_of_idles _ hi hw] at hs
    cases hs

/-- Settles O22: a shape advances and merges once, but for the two fault shapes (`Shape.Trace.countOps_advance`); and the
order is that of S6 to S8 (`bodyDone_trace`). -/
theorem peripheralsAdvanceOncePerCompletedStep : Obligations.PeripheralsAdvanceOncePerCompletedStep := by
  unfold Obligations.PeripheralsAdvanceOncePerCompletedStep
  intro s t hf e
  have hcount : ∀ st, t.status = some st → (st = .ok ∨ st = .fault) → ∀ id, IsAdvanceOp id →
      countOps id t.trace = if st = .ok then 1 else 0 := by
    intro st hst hst' id hid
    obtain ⟨-, hr⟩ := exec_step_answered s e (by rw [hst]; exact hst'.imp (congrArg some) (congrArg some))
    obtain ⟨u, e', htr, hu⟩ := exec_step_shape s hf hr
    cases e.symm.trans e'
    have hsh : s.begin.bodyShape.status = st := Option.some_inj.mp (hu.symm.trans hst)
    rw [htr.countOps_advance hid, Shape.advances_eq, hsh]
  refine ⟨fun hst => ⟨hcount _ hst (.inl rfl) 7 (.inl rfl), hcount _ hst (.inl rfl) 8 (.inr (.inl rfl)),
      hcount _ hst (.inl rfl) 12 (.inr (.inr rfl)), ?order⟩,
    fun hst => ⟨hcount _ hst (.inr rfl) 7 (.inl rfl), hcount _ hst (.inr rfl) 8 (.inr (.inl rfl)),
      hcount _ hst (.inr rfl) 12 (.inr (.inr rfl))⟩⟩
  case order =>
    obtain ⟨-, -, rfl⟩ := exec_step_ok s hf e hst
    exact ⟨_, _, _, _, _, (bodyDone_trace s.begin).symm⟩

/-- Settles O23: a shape has 5 to 14 micro-operations (`Shape.Trace.length_bounds`), and a body that is stuck has made at
most 13 of its calls (`call_trace_length`). -/
theorem stepIssuesFiveToFourteenMicroOperations : Obligations.StepIssuesFiveToFourteenMicroOperations := by
  unfold Obligations.StepIssuesFiveToFourteenMicroOperations
  intro s
  cases hf : s.fault with
  | true => exact ⟨_, exec_of_fault s _ hf, nofun, fun _ => rfl⟩
  | false =>
    cases hr : s.begin.bodyReturns with
    | true =>
      obtain ⟨t, e, htr, -⟩ := exec_step_shape s hf hr
      obtain ⟨h5, h14⟩ := htr.length_bounds
      exact ⟨t, e, fun _ => ⟨fun _ => h5, h14⟩, nofun⟩
    | false =>
      rcases exec_step_ends s hf with ⟨hn, -⟩ | ⟨_, hn, -⟩ | ⟨pre, u, c, post, -, hc, -, -, e⟩
      · rw [hr] at hn; cases hn
      · rw [hr] at hn; cases hn
      · have hu := call_trace_length s.begin (mem_of_split hc)
        exact ⟨_, e, fun _ => ⟨nofun, hu.trans (Nat.le_succ 13)⟩, nofun⟩

end Sys2Proof.Machine
end

section
/-!
SUPPORT. Interrupt requests through a `STEP` (spec/40_step.md R106, R107, R118; spec/60_exceptions.md R225): the query and
the entry of S4 in the trace, the bits of `irq_acc` from the DMA Engine's call to the merge, how a pending request waits
for the next `STEP` the DMA Engine declines, and the statements about them.
-/

namespace Sys2Proof.Machine

theorem bitsWithin_or_left (a b : IrqMask) : bitsWithin a (a ||| b) = true := by
  rw [Nat.or_comm]
  exact bitsWithin_or_right a b

theorem anyEnabledRequest_iff (ic : InterruptController) :
    ic.anyEnabledRequest = true ↔ ic.requested &&& ic.enabled ≠ 0 := bne_iff_ne

/-- Requests merged in take no enabled request away (R193). -/
theorem anyEnabledRequest_merge {ic : InterruptController} (m : IrqMask) (h : ic.anyEnabledRequest = true) :
    InterruptController.anyEnabledRequest { ic with requested := ic.requested ||| m } = true := by
  rw [anyEnabledRequest_iff] at *
  show (ic.requested ||| m) &&& ic.enabled ≠ 0
  rw [Nat.or_comm]
  exact and_ne_zero_of_or m h

namespace State

variable (s : State)

theorem pending_of_pendingContract (h : s.pendingContract = true) : s.pending = s.world.io.ic.anyEnabledRequest :=
  beq_iff_eq.mp h

/-! ### S4 in the trace -/

/-- What a `STEP` the DMA Engine declines has issued by the halt test stands at the beginning of its trace. -/
theorem atHaltTest_trace_prefix (hf : s.fault = false) (hr : s.begin.bodyReturns = true) (hd : s.begin.dmaTakes = false) :
    ∃ t, exec .step s = .next t ∧ s.begin.atHaltTest.trace <+: t.trace := by
  rcases exec_step_cases s hf hr with ⟨hn, -⟩ | ⟨-, -, -, e⟩ | ⟨-, -, -, -, e⟩ | ⟨info, -, -, -, -, e⟩
  · rw [hd] at hn; cases hn
  · refine ⟨_, e, ?_⟩
    rw [respond_trace, tailDone_trace, State.idled, idleTick_trace, log_trace, List.append_assoc]
    exact List.prefix_append _ _
  · refine ⟨_, e, ?_⟩
    rw [respond_trace, tailDone_trace, trace_executed, cpuStep_trace, State.atCpuStep, log_trace, List.append_assoc,
      List.append_assoc, List.append_assoc]
    exact List.prefix_append _ _
  · refine ⟨_, e, ?_⟩
    rw [raiseFault_trace, cpuStep_trace, State.atCpuStep, log_trace, List.append_assoc]
    exact List.prefix_append _ _

/-- What a `STEP` has issued when `CPU.step` returns stands at the beginning of its trace. -/
theorem cpuStep_trace_prefix (hf : s.fault = false) (hr : s.begin.bodyReturns = true) (hx : s.begin.executes = true) :
    ∃ t, exec .step s = .next t ∧ s.begin.atCpuStep.cpuStep.trace <+: t.trace := by
  rcases exec_step_cases s hf hr with ⟨-, -, hn, -⟩ | ⟨-, hn, -⟩ | ⟨-, -, -, -, e⟩ | ⟨info, -, -, -, -, e⟩
  · rw [hx] at hn; cases hn
  · rw [hx] at hn; cases hn
  · refine ⟨_, e, ?_⟩
    rw [respond_trace, tailDone_trace, trace_executed, List.append_assoc]
    exact List.prefix_append _ _
  · exact ⟨_, e, List.prefix_rfl⟩

theorem trace_atHaltTest_of_services (h : s.begin.services = true) : s.begin.atHaltTest.trace =
    [.cpuCycles s.cycles, .dmaTryWork 0 s.begin.atDma.dmaAnswer.irqAcc false] ++
      [.icPending true, .cpuServiceInterrupt, .ioSetRunning] := by
  rw [trace_atHaltTest s (services_dmaTakes _ h), if_pos h]

/-- Up to the query of S4, whose answer decides whether the entry follows. -/
theorem trace_query_prefix (hd : s.begin.dmaTakes = false) :
    [MicroOp.cpuCycles s.cycles, .dmaTryWork 0 s.begin.atDma.dmaAnswer.irqAcc false, .icPending s.begin.atQuery.pending]
      <+: s.begin.atHaltTest.trace := by
  rw [trace_atHaltTest s hd, pending_eq_services _ hd]
  cases s.begin.services with
  | true => exact List.prefix_append _ [MicroOp.cpuServiceInterrupt, MicroOp.ioSetRunning]
  | false => exact List.prefix_rfl

/-! ### The Interrupt Controller after a completed body -/

theorem bodyDone_irqAcc : s.bodyDone.irqAcc = s.atDisplay.displayAnswer.irqAcc := tailDone_irqAcc s.atTimer

theorem bodyDone_ic : s.bodyDone.world.io.ic =
    { s.atDisplay.displayAnswer.io.ic with requested := s.atMerge.mergeAnswer } := tailDone_ic s.atTimer

theorem mergeContract_of_bodyMerges (hc : s.completes = true) (hm : s.bodyMerges = true) :
    s.atMerge.mergeContract = true := by
  simpa [State.bodyMerges, hc] using hm

/-- With the contract of `IC.merge_requests` the pending mask is the one the display's call left, with `irq_acc` ORed
in. -/
theorem bodyDone_ic_of_bodyMerges (hc : s.completes = true) (hm : s.bodyMerges = true) : s.bodyDone.world.io.ic =
    { s.atDisplay.displayAnswer.io.ic with
      requested := s.atDisplay.displayAnswer.io.ic.requested ||| s.bodyDone.irqAcc } :=
  tailDone_ic_of_mergeContract s.atTimer (mergeContract_of_bodyMerges s hc hm)

/-- An enabled bit raised in a completed step is an enabled request after it. -/
theorem anyEnabledRequest_bodyDone (hc : s.completes = true) (hm : s.bodyMerges = true)
    (h : s.bodyDone.irqAcc &&& s.bodyDone.world.io.ic.enabled ≠ 0) :
    s.bodyDone.world.io.ic.anyEnabledRequest = true := by
  have e := bodyDone_ic_of_bodyMerges s hc hm
  rw [e] at h ⊢
  exact anyEnabledRequest_of_merged _ _ h

/-- In a taken body whose devices leave the Interrupt Controller alone it is, before the merge, the one the body began
with. -/
theorem atDisplay_ic_of_dmaTakes (hd : s.dmaTakes = true) (hl : s.devicesLeaveIcAlone = true) :
    s.atDisplay.displayAnswer.io.ic = s.world.io.ic := by
  have hc := completes_of_not_executes s (executes_of_dmaTakes s hd)
  simp only [State.devicesLeaveIcAlone, hc, Bool.not_true, Bool.false_or, Bool.and_eq_true, beq_iff_eq] at hl
  obtain ⟨hdma, htimer, hdisplay⟩ := hl
  calc s.atDisplay.displayAnswer.io.ic = s.atTimer.timerAnswer.io.ic := hdisplay
    _ = s.atTimer.world.io.ic := htimer
    _ = s.atDma.dmaAnswer.io.ic := by rw [atTimer_of_dmaTakes s hd]; rfl
    _ = s.world.io.ic := hdma

/-! ### A request that waits -/

/-- An enabled request is pending, and `FAULT` is 0. -/
structure Waiting (t : State) : Prop where
  requested   : t.world.io.ic.anyEnabledRequest = true
  operational : t.fault = false

theorem waiting_of_raised {t : State} (hf : s.fault = false) (hm : s.begin.bodyMerges = true)
    (e : exec .step s = .next t) (hs : t.status = some .ok) (h : t.irqAcc &&& t.world.io.ic.enabled ≠ 0) : Waiting t := by
  obtain ⟨-, hc, rfl⟩ := exec_step_ok s hf e hs
  exact ⟨anyEnabledRequest_bodyDone _ hc hm h, (sameSetting_bodyDone s.begin).fault.trans hf⟩

/-- A request waits over a step the DMA Engine takes, since the merge only adds to it. -/
theorem Waiting.step {s t : State} (h : Waiting s) (hd : s.begin.dmaTakes = true)
    (hl : s.begin.devicesLeaveIcAlone = true) (hm : s.begin.bodyMerges = true) (e : exec .step s = .next t)
    (hs : t.status = some .ok) : Waiting t := by
  obtain ⟨hreq, hf⟩ := h
  obtain ⟨-, hc, rfl⟩ := exec_step_ok s hf e hs
  refine ⟨?_, (sameSetting_bodyDone s.begin).fault.trans hf⟩
  rw [respond_world, bodyDone_ic_of_bodyMerges _ hc hm, atDisplay_ic_of_dmaTakes _ hd hl]
  exact anyEnabledRequest_merge _ hreq

theorem Waiting.takenRun {s t : State} (h : Waiting s) (r : TakenRun s t) : Waiting t := by
  induction r with
  | start => exact h
  | more r hd hl hm e hs ih => exact ih.step hd hl hm e hs

/-- Of the calls of a body the DMA Engine takes, none is the entry routine. -/
theorem call_countOps_entry {u : State} {c : Call} (hd : s.dmaTakes = true) (h : (u, c) ∈ s.bodyCalls) :
    countOps 2 u.trace = countOps 2 s.trace := by
  have hx := executes_of_dmaTakes s hd
  have hsv : s.services = false := by simp [State.services, hd]
  have ht : countOps 2 s.atTimer.trace = countOps 2 s.trace := by
    rw [atTimer_of_dmaTakes s hd]
    simp [State.atQuery, State.atDma, countOps, MicroOp.id]
  have hv : countOps 2 s.atDisplay.displayAdvance.trace = countOps 2 s.trace := by
    rw [← ht]
    simp [State.atDisplay, countOps, MicroOp.id]
  rcases bodyCalls_cases s h with rfl | rfl | ⟨h, -⟩ | ⟨h, -⟩ | ⟨h, -⟩ | ⟨h, -⟩ | ⟨h, -⟩ | ⟨h, -⟩ | ⟨-, hu⟩
  · rfl
  · simp [State.atDma, countOps, MicroOp.id]
  · rw [hd] at h; cases h
  · rw [hsv] at h; cases h
  · rw [hsv] at h; cases h
  · rw [hd] at h; cases h
  · rw [hx] at h; cases h
  · rw [hx] at h; cases h
  · rcases hu with rfl | rfl | rfl | rfl | rfl | rfl
    · exact ht
    · rw [← ht]; simp [State.atDisplay, countOps, MicroOp.id]
    · exact hv
    · rw [← hv]; simp [countOps, MicroOp.id]
    · rw [← hv]; simp [countOps, MicroOp.id]
    · have he : countOps 2 (edgeOps s.atDisplay.displayAdvance.trans s.atDisplay.displayAdvance.framebuffer) = 0 := by
        unfold edgeOps
        split
        · rfl
        · split <;> rfl
      rw [State.atMerge, edgeDone_trace, countOps_append, he]
      exact hv

/-- A `STEP` the DMA Engine takes runs no entry routine, returning or stuck. -/
theorem exec_step_no_entry (hf : s.fault = false) (hd : s.begin.dmaTakes = true) :
    ∃ t, exec .step s = .next t ∧ countOps 2 t.trace = 0 := by
  cases hr : s.begin.bodyReturns with
  | true =>
    obtain ⟨t, e, htr, -⟩ := exec_step_shape s hf hr
    rw [bodyShape_of_dmaTakes _ hd] at htr
    exact ⟨t, e, htr.countOps_entry⟩
  | false =>
    rcases exec_step_ends s hf with ⟨hn, -⟩ | ⟨_, hn, -⟩ | ⟨pre, u, c, post, -, hc, -, -, e⟩
    · rw [hr] at hn; cases hn
    · rw [hr] at hn; cases hn
    · have hn : countOps 2 u.trace = 0 := call_countOps_entry s.begin hd (mem_of_split hc)
      exact ⟨_, e, hn⟩

/-- A waiting request is serviced in the first step the DMA Engine declines. -/
theorem Waiting.services {s : State} (h : Waiting s) (hd : s.begin.dmaTakes = false)
    (hi : s.begin.atDma.dmaAnswer.io.ic = s.world.io.ic) (hp : s.begin.atQuery.pendingContract = true) :
    s.begin.services = true := by
  obtain ⟨hreq, -⟩ := h
  have hic : s.begin.atQuery.world.io.ic = s.world.io.ic := hi
  rw [← pending_eq_services _ hd, pending_of_pendingContract _ hp, hic, hreq]

end State

open State

/-! ### The statements -/

/-- Settles O16: what the step has issued by the halt test is at the beginning of its trace, and so, when a wake that
keeps its contract leads to an instruction (`executes_of_services`), is what it has issued by its end; the rest is
`stepExecutesOneInstruction`. -/
theorem stepServicesInterruptWakesAndExecutes : Obligations.StepServicesInterruptWakesAndExecutes := by
  unfold Obligations.StepServicesInterruptWakesAndExecutes
  intro s hf hr hs
  have hd := services_dmaTakes _ hs
  obtain ⟨t, e, hp⟩ := atHaltTest_trace_prefix s hf hr hd
  refine ⟨t, e, ?entry, fun hw => ⟨?instruction, fun hok => ?ok⟩⟩
  case entry =>
    rw [trace_atHaltTest_of_services s hs] at hp
    exact (List.suffix_append _ _).isInfix.trans hp.isInfix
  case instruction =>
    obtain ⟨u, e', hp⟩ := cpuStep_trace_prefix s hf hr (executes_of_services _ hs hw)
    cases e.symm.trans e'
    rw [trace_cpuStep s hd, if_pos hs, List.append_assoc] at hp
    exact (List.suffix_append _ _).isInfix.trans hp.isInfix
  case ok =>
    obtain ⟨-, u, e', hst, -, hcpu, hel, hsh⟩ :=
      stepExecutesOneInstruction s hf hr (executes_of_services _ hs hw) hok
    cases e.symm.trans e'
    rw [if_pos hs] at hsh
    exact ⟨hst, hcpu, hel, hsh⟩

/-- Settles O21: the merge is the last micro-operation of a completed body (`bodyDone_trace`), on the Interrupt Controller
the display's call left (`bodyDone_ic`), and ORs by its contract (`bodyDone_ic_of_bodyMerges`). -/
theorem requestsAreMergedAtTheEndOfTheStep : Obligations.RequestsAreMergedAtTheEndOfTheStep := by
  unfold Obligations.RequestsAreMergedAtTheEndOfTheStep
  intro s hf hr hc
  refine ⟨_, exec_step_of_completes s hf hr hc, rfl, bodyDone_irqAcc s.begin, ?enabled, fun hm => ?merged, ?last⟩
  case enabled => rw [respond_world, bodyDone_ic]
  case merged =>
    rw [respond_world, respond_irqAcc, bodyDone_ic_of_bodyMerges _ hc hm]
    refine ⟨rfl, bitsWithin_or_left _ _, fun h0 => ?_⟩
    rw [h0, Nat.or_zero]
  case last => rw [respond_trace, bodyDone_trace, respond_irqAcc, ← List.append_assoc, List.getLast?_concat]

/-- Settles O24: the query is asked of the Interrupt Controller the DMA Engine's call left (`trace_query_prefix`), and
after a merge that ORs, an enabled bit of `irq_acc` is an enabled request (`anyEnabledRequest_bodyDone`). -/
theorem requestIsNotSeenInTheStepThatRaisesIt : Obligations.RequestIsNotSeenInTheStepThatRaisesIt := by
  unfold Obligations.RequestIsNotSeenInTheStepThatRaisesIt
  intro s hf hr hd hp
  obtain ⟨t, e, hpre⟩ := atHaltTest_trace_prefix s hf hr hd
  refine ⟨t, e, ?query, fun hs hm h hpt => ?seen⟩
  case query =>
    have hq := (trace_query_prefix s hd).trans hpre
    rw [pending_of_pendingContract _ hp] at hq
    exact hq
  case seen =>
    obtain ⟨-, hc, rfl⟩ := exec_step_ok s hf e hs
    rw [pending_of_pendingContract _ hpt]
    exact anyEnabledRequest_bodyDone _ hc hm h

/-- Settles O25: the raised request waits over every step the DMA Engine takes (`State.Waiting.takenRun`), in none of which
the entry routine runs, and the first step it declines has the shape of one that services an interrupt
(`State.Waiting.services`). -/
theorem raisedRequestIsServicedInTheNextDeclinedStep : Obligations.RaisedRequestIsServicedInTheNextDeclinedStep := by
  unfold Obligations.RaisedRequestIsServicedInTheNextDeclinedStep
  intro s t u hf hm e hs h hrun
  have hw : Waiting u := (waiting_of_raised s hf hm e hs h).takenRun hrun
  obtain ⟨v, e'⟩ := exec_total u .step
  refine ⟨v, e', fun hd => ?taken, fun hd hi hp hr => ?declined⟩
  case taken =>
    obtain ⟨v', e'', hv⟩ := exec_step_no_entry u hw.operational hd
    cases e'.symm.trans e''
    exact hv
  case declined =>
    obtain ⟨v', e'', htr, -⟩ := exec_step_shape u hw.operational hr
    cases e'.symm.trans e''
    rw [htr.countOps_entry, bodyShape_entries_of_services _ (hw.services hd hi hp)]

/-- Settles O28: `irq_acc` only grows from the DMA Engine's call to the merge, which ORs it in. -/
theorem raisedBitsReachThePendingMask : Obligations.RaisedBitsReachThePendingMask := by
  unfold Obligations.RaisedBitsReachThePendingMask
  intro s t hf hmask hm e hs
  obtain ⟨-, hc, rfl⟩ := exec_step_ok s hf e hs
  refine ⟨?kept, ?merged⟩
  case kept =>
    simp only [State.maskContract, hc, Bool.not_true, Bool.false_or, Bool.and_eq_true] at hmask
    obtain ⟨-, htimer, hdisplay⟩ := hmask
    rw [atTimer_irqAcc] at htimer
    rw [respond_irqAcc, bodyDone_irqAcc]
    exact bitsWithin_trans htimer hdisplay
  case merged =>
    rw [respond_irqAcc, respond_world, bodyDone_ic_of_bodyMerges _ hc hm]
    exact bitsWithin_or_right _ _

end Sys2Proof.Machine
end

section
/-!
SUPPORT. The cycle counter and the elapsed counts over `STEP`s (spec/40_step.md R112, "Step monotonicity";
spec/70_reset_and_hazards.md R272): how far a body can be from its counter at the start, what a completed `STEP` adds, and
the two inductions over sequences of `STEP`s.
-/

namespace Sys2Proof.Machine

namespace State

variable (s : State)

/-! ### The contracts of the two CPU calls -/

theorem counterContract_iff : s.counterContract = true ↔
    (s.services = true → s.atService.serviceKeepsCounter = true) ∧
      (s.executes = true → s.atCpuStep.stepRaisesCounter = true) := by
  simp only [State.counterContract, Bool.and_eq_true, Bool.or_eq_true, Bool.not_eq_true', ← Bool.not_eq_true,
    ← imp_iff_not_or]

theorem cycles_le_of_stepRaisesCounter (h : s.stepRaisesCounter = true) : s.cycles ≤ s.cpuStep.cycles := by
  simp only [State.stepRaisesCounter, Bool.and_eq_true, decide_eq_true_eq] at h
  obtain ⟨hle, -⟩ := h
  exact hle

/-- An instruction that succeeds raises the counter strictly (R184). -/
theorem cycles_lt_of_stepRaisesCounter (h : s.stepRaisesCounter = true) (hok : s.cpuStepAnswer.result = .ok) :
    s.cycles < s.cpuStep.cycles := by
  simp only [State.stepRaisesCounter, Bool.and_eq_true, decide_eq_true_eq, Bool.or_eq_true, bne_iff_ne, hok, ne_eq,
    not_true_eq_false, false_or] at h
  obtain ⟨-, hlt⟩ := h
  exact hlt

/-! ### The counter at the calls of a body -/

section

variable {s} (h : s.counterContract = true)

include h

theorem cycles_le_atWake (hs : s.services = true) : s.cycles ≤ s.atWake.cycles := by
  obtain ⟨hsv, -⟩ := (counterContract_iff s).mp h
  exact of_decide_eq_true (hsv hs)

theorem cycles_le_atHaltTest (hd : s.dmaTakes = false) : s.cycles ≤ s.atHaltTest.cycles := by
  show s.cycles ≤ s.atHaltTest.world.cpu.cycles
  rw [atHaltTest_cpu s hd]
  cases hs : s.services with
  | true => exact cycles_le_atWake h hs
  | false => exact le_rfl

theorem cycles_le_cpuStep (hx : s.executes = true) : s.cycles ≤ s.atCpuStep.cpuStep.cycles := by
  obtain ⟨-, hst⟩ := (counterContract_iff s).mp h
  exact (cycles_le_atHaltTest h (executes_dmaTakes s hx)).trans (cycles_le_of_stepRaisesCounter _ (hst hx))

theorem cycles_lt_executed (hx : s.executes = true) (hok : s.atCpuStep.cpuStepAnswer.result = .ok) :
    s.cycles < s.executed.cycles := by
  obtain ⟨-, hst⟩ := (counterContract_iff s).mp h
  exact (cycles_le_atHaltTest h (executes_dmaTakes s hx)).trans_lt (cycles_lt_of_stepRaisesCounter _ (hst hx) hok)

theorem cycles_le_atTimer : s.cycles ≤ s.atTimer.cycles := by
  unfold State.atTimer
  cases hd : s.dmaTakes with
  | true => exact le_rfl
  | false =>
    cases hx : s.executes with
    | true => exact cycles_le_cpuStep h hx
    | false => exact cycles_le_atHaltTest h hd

theorem cycles_le_call {u : State} {c : Call} (hu : (u, c) ∈ s.bodyCalls) : s.cycles ≤ u.cycles := by
  have ht := cycles_le_atTimer h
  rcases bodyCalls_cases s hu with rfl | rfl | ⟨-, rfl⟩ | ⟨-, rfl⟩ | ⟨hs, rfl⟩ | ⟨hd, rfl⟩ | ⟨hx, rfl⟩ | ⟨hx, rfl⟩ | ⟨-, hu⟩
  · exact le_rfl
  · exact le_rfl
  · exact le_rfl
  · exact le_rfl
  · exact cycles_le_atWake h hs
  · exact cycles_le_atHaltTest h hd
  · exact cycles_le_atHaltTest h (executes_dmaTakes s hx)
  · exact cycles_le_cpuStep h hx
  · rcases hu with rfl | rfl | rfl | rfl | rfl | rfl
    · exact ht
    · exact ht
    · exact ht
    · exact ht
    · exact ht
    · show s.cycles ≤ s.atDisplay.displayAdvance.edgeDone.world.cpu.cycles
      rw [edgeDone_cpu]
      exact ht

end

/-- A `STEP`, however it ends, does not decrease the counter. -/
theorem exec_step_cycles (h : s.begin.counterContract = true) : ∃ t, exec .step s = .next t ∧ s.cycles ≤ t.cycles := by
  cases hf : s.fault with
  | true => exact ⟨_, exec_of_fault s _ hf, le_rfl⟩
  | false =>
    rcases exec_step_ends s hf with ⟨-, -, e⟩ | ⟨info, -, hx, e⟩ | ⟨pre, u, c, post, -, hc, -, -, e⟩
    · have hle := cycles_le_atTimer h
      rw [← bodyDone_cycles] at hle
      exact ⟨_, e, hle⟩
    · exact ⟨_, e, cycles_le_cpuStep h hx.1⟩
    · have hle : s.cycles ≤ u.cycles := cycles_le_call h (mem_of_split hc)
      exact ⟨_, e, hle⟩

/-! ### What a completed `STEP` adds -/

theorem atTimer_took : s.atTimer.took = s.dmaTakes := by
  obtain ⟨-, -, h, -⟩ := atHaltTest_keeps s
  unfold State.atTimer
  split
  · rfl
  · split <;> exact h

/-- An idle tick that has serviced no interrupt leaves the counter alone. -/
theorem idled_cycles (hi : s.idles = true) (hs : s.services = false) : s.idled.cycles = s.cycles := by
  obtain ⟨hd, -⟩ := idles_spec s hi
  have hcpu := atHaltTest_cpu s hd
  rw [hs] at hcpu
  exact congrArg Cpu.cycles hcpu

/-- Of a completed `STEP`: the DMA Engine took the cycle, or the halt test answered 0, or the counter was raised, and the
peripherals have received what it was raised by.  The idle case follows no interrupt entry, by R195. -/
theorem exec_step_counts {t : State} (hc : s.begin.counterContract = true) (hw : s.begin.bodyWakes = true)
    (e : exec .step s = .next t) (hs : t.status = some .ok) :
    (t.took = true ∧ MicroOp.ioHaltRunning false ∉ t.trace ∧ t.elapsed = 0 ∧ t.cycles = s.cycles) ∨
    (t.took = false ∧ MicroOp.ioHaltRunning false ∈ t.trace ∧ t.elapsed = 1 ∧ t.cycles = s.cycles) ∨
    (t.took = false ∧ MicroOp.ioHaltRunning false ∉ t.trace ∧ t.elapsed = t.cycles - s.cycles ∧ s.cycles < t.cycles) := by
  obtain ⟨hf, hr⟩ := exec_step_answered s e (.inl hs)
  obtain ⟨u, e', htr, -⟩ := exec_step_shape s hf hr
  cases e.symm.trans e'
  have hhalt := htr.halted_iff
  obtain ⟨-, hcomp, rfl⟩ := exec_step_ok s hf e hs
  have htook : (s.begin.bodyDone.respond .ok 0).took = s.begin.dmaTakes := (bodyDone_took _).trans (atTimer_took _)
  have hcyc : (s.begin.bodyDone.respond .ok 0).cycles = s.begin.atTimer.cycles := bodyDone_cycles _
  rcases arbiter_cases s.begin with ⟨hd, -, -, -, -, ht⟩ | ⟨hd, -, hi, -, ht⟩ | ⟨hd, hx, -, hok, -, ht⟩ |
    ⟨info, -, -, -, -, hn⟩
  · rw [bodyShape_of_dmaTakes _ hd] at hhalt
    rw [ht] at hcyc
    exact .inl ⟨htook.trans hd, fun h => by (cases hhalt.mp h), bodyDone_elapsed_of_dmaTakes _ hd, hcyc⟩
  · have hsv := services_of_idles _ hi hw
    rw [bodyShape_of_idles _ hi, hsv] at hhalt
    rw [ht, idled_cycles _ hi hsv] at hcyc
    exact .inr (.inl ⟨htook.trans hd, hhalt.mpr rfl, bodyDone_elapsed_of_idles _ hi, hcyc⟩)
  · have hlt := cycles_lt_executed hc hx hok
    rw [← ht, ← hcyc] at hlt
    rw [bodyShape_of_executes _ hx hok] at hhalt
    refine .inr (.inr ⟨htook.trans hd, fun h => ?_, ?_, hlt⟩)
    · have := hhalt.mp h
      cases hsv : s.begin.services <;> rw [hsv] at this <;> cases this
    · exact (bodyDone_elapsed_of_executes _ hx).trans (elapsedSince_of_le (Nat.le_of_lt hlt))
  · rw [hcomp] at hn; cases hn

/-- One `STEP` of R272: the counter and the count handed out balance, an idle step being one count ahead. -/
theorem exec_step_balance {t : State} (hc : s.begin.counterContract = true) (hw : s.begin.bodyWakes = true)
    (e : exec .step s = .next t) (hs : t.status = some .ok) :
    s.cycles + t.elapsed = t.cycles + (if MicroOp.ioHaltRunning false ∈ t.trace then 1 else 0) ∧
      s.cycles ≤ t.cycles := by
  rcases exec_step_counts s hc hw e hs with ⟨-, hh, he, hcyc⟩ | ⟨-, hh, he, hcyc⟩ | ⟨-, hh, he, hlt⟩
  · rw [if_neg hh]; omega
  · rw [if_pos hh]; omega
  · rw [if_neg hh]; omega

end State

open State

/-! ### The statements -/

/-- Settles O27: by induction over the sequence, no `STEP` decreases the counter (`exec_step_cycles`); and of the three ways
to complete only the instruction raises it (`exec_step_counts`). -/
theorem stepNeverDecreasesTheCycleCounter : Obligations.StepNeverDecreasesTheCycleCounter := by
  unfold Obligations.StepNeverDecreasesTheCycleCounter
  refine ⟨fun s t r => ?sequence, fun s hc hw => ?completed⟩
  case sequence =>
    induction r with
    | start => exact le_rfl
    | @more t u r hc e ih =>
      obtain ⟨v, e', hle⟩ := exec_step_cycles t hc
      cases e.symm.trans e'
      exact ih.trans hle
  case completed =>
    obtain ⟨t, e⟩ := exec_total s .step
    refine ⟨t, e, fun hs => ?_⟩
    rcases exec_step_counts s hc hw e hs with ⟨ht, -, -, hcyc⟩ | ⟨-, hh, -, hcyc⟩ | ⟨ht, hh, -, hlt⟩
    · exact ⟨fun _ => .inl ht, fun _ => hcyc⟩
    · exact ⟨fun _ => .inr hh, fun _ => hcyc⟩
    · refine ⟨fun hcyc => absurd hcyc hlt.ne', fun h => ?_⟩
      rcases h with h | h
      · rw [ht] at h; cases h
      · exact absurd h hh

/-- Settles O29: by induction over the sequence, each `STEP` adding to both sides what `exec_step_balance` says. -/
theorem peripheralCyclesAreDeltaPlusIdleSteps : Obligations.PeripheralCyclesAreDeltaPlusIdleSteps := by
  unfold Obligations.PeripheralCyclesAreDeltaPlusIdleSteps
  intro s t e k r
  induction r with
  | start => exact ⟨rfl, le_rfl⟩
  | @more t u e k r hc hw he hs ih =>
    obtain ⟨hsum, hle⟩ := ih
    obtain ⟨hsum', hle'⟩ := exec_step_balance t hc hw he hs
    omega

end Sys2Proof.Machine
end

section
/-!
SUPPORT. What a `STEP` and a loop test of a `FRAME` leave unchanged (spec/40_step.md R127, spec/41_frame.md R151,
spec/20_memory.md R40), returning or stuck, and the statements about it.
-/

namespace Sys2Proof.Machine

namespace State

variable (s : State)

/-! ### The CPU and the bus memory after a body -/

/-- Bus memory, the CPU and the bytes nobody stores to, in a state a body ends in. -/
structure BodyFrame (s t : State) : Prop where
  cpu    : s.services = false → s.executes = false → t.world.cpu = s.world.cpu
  memory : s.bodyReturns = true → t.world.mem = Memory.writes s.bodyWrites s.world.mem
  read   : ∀ a, (∀ c ∈ s.bodyWrites, c.1 ≠ a) → Memory.read t.world.mem a = Memory.read s.world.mem a

theorem bodyFrame_bodyDone (hc : s.completes = true) : BodyFrame s s.bodyDone where
  cpu hs hx := (bodyDone_cpu s).trans (cpu_atTimer s hs hx)
  memory _ := mem_bodyDone s hc
  read a ha := by rw [mem_bodyDone s hc, Memory.read_writes_other _ _ _ ha]

theorem bodyFrame_cpuStep {info : FaultInfo} (h : s.faultsWith info) : BodyFrame s s.atCpuStep.cpuStep where
  cpu _ hx := by
    obtain ⟨hx', -⟩ := h
    rw [hx] at hx'
    cases hx'
  memory _ := mem_raised s h
  read a ha := by rw [mem_raised s h, Memory.read_writes_other _ _ _ ha]

theorem bodyFrame_stuck {u : State} {c : Call} (hr : s.bodyReturns = false) (h : (u, c) ∈ s.bodyCalls) :
    BodyFrame s u where
  cpu hs hx := cpu_call s h hs hx
  memory hr' := by rw [hr] at hr'; cases hr'
  read a ha := read_call s h a ha

/-- The part of `SameSetting` that also a raised fault, a response and a stuck call leave alone (R127). -/
structure SettingKept (t u : State) : Prop where
  bp        : u.bp = t.bp
  build     : u.build = t.build
  caller    : u.caller = t.caller
  keys      : u.env.polledKeys = t.env.polledKeys
  keyEffect : u.env.keyInputEffect = t.env.keyInputEffect

theorem ReachedInBody.settingKept {s t : State} (h : ReachedInBody s t) : SettingKept s t :=
  have k := h.sameSetting
  ⟨k.bp, k.build, k.caller, k.keys, k.keyEffect⟩

theorem SettingKept.respond {s t : State} (h : SettingKept s t) (st : Status) (d : Addr) :
    SettingKept s (t.respond st d) := { h with }

theorem SettingKept.raiseFault {s t : State} (h : SettingKept s t) (info : FaultInfo) :
    SettingKept s (t.raiseFault info) := { h with }

theorem SettingKept.hang {s t : State} (h : SettingKept s t) (c : Call) : SettingKept s (t.hang c) := { h with }

theorem BodyFrame.respond {s t : State} (h : BodyFrame s t) (st : Status) (d : Addr) : BodyFrame s (t.respond st d) :=
  { h with }

theorem BodyFrame.raiseFault {s t : State} (h : BodyFrame s t) (info : FaultInfo) : BodyFrame s (t.raiseFault info) :=
  { h with }

theorem BodyFrame.hang {s t : State} (h : BodyFrame s t) (c : Call) : BodyFrame s (t.hang c) := { h with }

/-- The identifier is that of one of the four micro-operations that no body issues (R70): the reads of the next address
and of the level, the write of the input register, and the poll. -/
def IsForeignOp (id : BitVec 5) : Prop := id = 1 ∨ id = 9 ∨ id = 15 ∨ id = 16

theorem ReachedInBody.countOps {s t : State} (h : ReachedInBody s t) {id : BitVec 5} (hid : IsForeignOp id) :
    countOps id t.trace = countOps id s.trace :=
  h _ (keptByBody_countOps id _ hid) rfl

theorem ReachedInBody.presented {s t : State} (h : ReachedInBody s t) : s.presented <+: t.presented :=
  h _ (keptByBody_presented s) List.prefix_rfl

/-- `stepBody_reached` with what the state reached holds of the world. -/
theorem stepBody_frame :
    (∃ t, s.stepBody = .completed t ∧ ReachedInBody s t ∧ BodyFrame s t) ∨
    (∃ t info, s.stepBody = .raised (t.raiseFault info) ∧ ReachedInBody s t ∧ BodyFrame s t) ∨
    (∃ t c, s.stepBody = .stuck (t.hang c) ∧ ReachedInBody s t ∧ BodyFrame s t) := by
  rcases stepBody_cases s with ⟨-, hc, e⟩ | ⟨info, -, hx, e⟩ | ⟨pre, u, c, post, hr, hc, -, -, e⟩
  · exact .inl ⟨_, e, reachedInBody_bodyDone s, bodyFrame_bodyDone s hc⟩
  · exact .inr (.inl ⟨_, info, e, reachedInBody_cpuStep s, bodyFrame_cpuStep s hx⟩)
  · exact .inr (.inr ⟨u, c, e, reachedInBody_stuck s hc, bodyFrame_stuck s hr (mem_of_split hc)⟩)

/-- What the three ends of a body have in common: what it cannot touch, the frames presented before, and the world. -/
theorem stepBody_state_frame :
    SettingKept s s.stepBody.state ∧ s.presented <+: s.stepBody.state.presented ∧ BodyFrame s s.stepBody.state := by
  rcases stepBody_frame s with ⟨t, e, k, b⟩ | ⟨t, info, e, k, b⟩ | ⟨t, c, e, k, b⟩ <;> rw [e]
  · exact ⟨k.settingKept, k.presented, b⟩
  · exact ⟨k.settingKept.raiseFault info, k.presented, b.raiseFault info⟩
  · exact ⟨k.settingKept.hang c, k.presented, b.hang c⟩

/-- What the ends of a `STEP` have in common: what it cannot touch, the micro-operations it does not issue, and the
world. -/
theorem exec_step_frame (hf : s.fault = false) : ∃ t, exec .step s = .next t ∧ SettingKept s.begin t ∧
    (∀ id, IsForeignOp id → countOps id t.trace = 0) ∧ BodyFrame s.begin t := by
  have E := exec_step_eq s hf
  rcases stepBody_frame s.begin with ⟨t, e, k, b⟩ | ⟨t, info, e, k, b⟩ | ⟨t, c, e, k, b⟩ <;> rw [e] at E
  · exact ⟨_, E, k.settingKept.respond .ok 0, fun _ hid => k.countOps hid, b.respond .ok 0⟩
  · exact ⟨_, E, k.settingKept.raiseFault info, fun _ hid => k.countOps hid, b.raiseFault info⟩
  · exact ⟨_, E, k.settingKept.hang c, fun _ hid => k.countOps hid, b.hang c⟩

end State

open State

/-! ### The statements -/

/-- Settles O26: what the ends of a `STEP` have in common (`exec_step_frame`), with what each makes of the latch
(`exec_step_latch`) and that one whose calls all return has responded (`exec_of_returns`). -/
theorem stepFrame : Obligations.StepFrame := by
  unfold Obligations.StepFrame
  intro s hf
  obtain ⟨t, e, hs, hops, hb⟩ := exec_step_frame s hf
  refine ⟨t, e, hs.bp, hs.build, hs.caller, fun hr => ?idle, hs.keys, hs.keyEffect, hops 1 (.inl rfl),
    hops 9 (.inr (.inl rfl)), hops 15 (.inr (.inr (.inl rfl))), hops 16 (.inr (.inr (.inr rfl))), fun hst => ?latch,
    hb.cpu, hb.memory, hb.read⟩
  case idle =>
    obtain ⟨u, e', -, h⟩ := exec_of_returns s .step hf hr
    cases e.symm.trans e'
    obtain ⟨hp, -⟩ := h nofun
    exact hp
  case latch =>
    obtain ⟨u, e', h⟩ := exec_step_latch s hf
    cases e.symm.trans e'
    rcases h with ⟨hfault, hinfo⟩ | h
    · exact ⟨hfault.trans hf, hinfo⟩
    · exact absurd h.status hst

/-- Settles O37: a loop test without a body changes nothing of the world, and one with a body what the body changes
(`stepBody_frame`); the latch is kept or the fault raised (`step_loop_latch`). -/
theorem frameLoopFrame : Obligations.FrameLoopFrame := by
  unfold Obligations.FrameLoopFrame
  intro s hl
  obtain ⟨v, ev, hlatch⟩ := step_loop_latch s hl
  have hlatch : (v.fault = s.fault ∧ v.faultInfo = s.faultInfo) ∨ v.status = some .fault :=
    hlatch.imp_right FaultRaised.status
  refine ⟨v, ev, ?_⟩
  rcases step_loop_cases s hl with ⟨hn, e⟩ | ⟨-, -, -, hoff, e⟩ | ⟨-, -, -, hoff, e⟩ | ⟨-, hon, -, -, e⟩ <;>
    cases ev.symm.trans e
  · refine ⟨rfl, rfl, rfl, rfl, rfl, List.prefix_rfl, hlatch, fun _ => rfl, fun _ _ => rfl, fun _ =>
      ⟨fun hr => ?_, fun _ _ => rfl⟩⟩
    obtain ⟨hd, -⟩ := loopReturns_spec s hr
    rw [hn] at hd
    cases hd
  · exact ⟨rfl, rfl, rfl, rfl, rfl, List.prefix_rfl, hlatch, fun _ => rfl, fun _ _ => rfl,
      fun hon => by rw [hoff] at hon; cases hon⟩
  · exact ⟨rfl, rfl, rfl, rfl, rfl, List.prefix_rfl, hlatch, fun _ => rfl, fun _ _ => rfl,
      fun hon => by rw [hoff] at hon; cases hon⟩
  · obtain ⟨hs, hp, hb⟩ := stepBody_state_frame s.readLevel
    refine ⟨hs.bp, hs.build, hs.caller, hs.keys, hs.keyEffect, hp, hlatch,
      fun hoff => by (rw [hon] at hoff; cases hoff), hb.cpu, fun _ => ⟨fun hr => ?_, hb.read⟩⟩
    obtain ⟨-, hbody⟩ := loopReturns_spec s hr
    exact hb.memory (hbody hon)

end Sys2Proof.Machine
end

section
/-!
SUPPORT. The loops of a `FRAME` (spec/41_frame.md R142 to R144, R148, R150): how a loop test ends a `FRAME`, how the two
loops follow the level, how many frames are presented, and a `FRAME` that the DMA Engine keeps busy for as many steps as one
likes; and the statements about them.
-/

namespace Sys2Proof.Machine

namespace State

variable (s : State)

/-! ### One loop test -/

section

variable {s}

theorem inLoop_of_f2 (h : s.phase = .f2) : s.inLoop = true := by simp [State.inLoop, h]

theorem inLoop_of_f3 (h : s.phase = .f3) : s.inLoop = true := by simp [State.inLoop, h]

theorem loopsOn_of_f2 (h : s.phase = .f2) (hl : s.displayLevel ≠ .vblank) : s.loopsOn = true := by
  simp [State.loopsOn, h, DisplayState.isVblank_eq, hl]

theorem loopsOn_of_f3 (h : s.phase = .f3) (hl : s.displayLevel = .vblank) : s.loopsOn = true := by
  simp [State.loopsOn, h, DisplayState.isVblank_eq, hl]

/-- F2 with the level at `VBlank` goes to F3 (R142). -/
theorem step_leaves_f2 {t : State} (hp : s.phase = .f2) (hl : s.displayLevel = .vblank) (hr : s.loopReturns = true)
    (e : step s = .next t) : t = { s.readLevel with phase := .f3 } := by
  obtain ⟨u, e', h, -⟩ := frameLoopTestsTheLevelAndRunsOneBody s (inLoop_of_f2 hp) hr
  cases e.symm.trans e'
  exact h hp hl

/-- F3 with the level outside `VBlank` responds (R143). -/
theorem step_ends_f3 {t : State} (hp : s.phase = .f3) (hl : s.displayLevel ≠ .vblank) (hr : s.loopReturns = true)
    (e : step s = .next t) : t = s.readLevel.respond .ok 0 := by
  obtain ⟨u, e', -, h, -⟩ := frameLoopTestsTheLevelAndRunsOneBody s (inLoop_of_f3 hp) hr
  cases e.symm.trans e'
  exact h hp hl

/-- A loop test with a body whose calls return and which does not fault stays at the same test, without a response. -/
theorem step_loops_on {t : State} (hi : s.inLoop = true) (ho : s.loopsOn = true) (hr : s.loopReturns = true)
    (e : step s = .next t) (hf : t.fault = false) : t.phase = s.phase ∧ t.response = s.response := by
  obtain ⟨u, e', -, -, h⟩ := frameLoopTestsTheLevelAndRunsOneBody s hi hr
  cases e.symm.trans e'
  obtain ⟨hdone, hfault⟩ := h ho
  cases hc : s.readLevel.completes with
  | true =>
    obtain ⟨-, hp, hresp⟩ := hdone hc
    exact ⟨hp, hresp⟩
  | false =>
    obtain ⟨info, hx⟩ := faultsWith_of_not_completes _ hc
    obtain ⟨-, ht, -⟩ := hfault info hx
    rw [ht] at hf
    cases hf

end

/-- The two ways in which a command in progress becomes idle. -/
theorem step_becomes_idle {t : State} (hp : s.phase ≠ .idle) (e : step s = .next t) (ht : t.phase = .idle) :
    (s.phase = .f3 ∧ s.displayLevel ≠ .vblank ∧ t = s.readLevel.respond .ok 0) ∨ FaultRaised t := by
  rcases phase_cases s with hi | hl | ⟨c, hc⟩
  · exact absurd hi hp
  · rcases step_loop_cases s hl with ⟨-, e'⟩ | ⟨-, -, -, -, e'⟩ | ⟨-, h3, hv, -, e'⟩ | ⟨-, -, -, -, e'⟩ <;>
      cases e.symm.trans e'
    · cases ht
    · cases ht
    · exact .inl ⟨h3, hv, rfl⟩
    · rcases stepBody_reached s.readLevel with ⟨t, eb, k⟩ | ⟨t, info, eb, -⟩ | ⟨t, c, eb, -⟩ <;> rw [eb] at ht ⊢
      · exact absurd (k.sameSetting.phase.symm.trans ht) hp
      · exact .inr (faultRaised_raiseFault t info)
      · cases ht
  · cases e.symm.trans (step_stuck s hc)
    exact absurd ht hp

/-! ### The level over a body, with a display that keeps its contract -/

theorem levelOwned_iff : s.levelOwned = true ↔
    s.atDma.dmaAnswer.io.display.level = s.displayLevel ∧
    (s.services = true → s.atService.cpuServiceAnswer.io.display.level = s.atService.displayLevel) ∧
    (s.executes = true → s.atCpuStep.cpuStepAnswer.io.display.level = s.atCpuStep.displayLevel) ∧
    (s.completes = true → s.atTimer.timerAnswer.io.display.level = s.atTimer.displayLevel) := by
  simp only [State.levelOwned, Bool.and_eq_true, Bool.or_eq_true, Bool.not_eq_true', ← Bool.not_eq_true,
    ← imp_iff_not_or, beq_iff_eq, and_assoc]

section

variable {s} (h : s.levelOwned = true)

include h

theorem atQuery_level : s.atQuery.displayLevel = s.displayLevel := by
  obtain ⟨hd, -⟩ := (levelOwned_iff s).mp h
  exact hd

theorem atHaltTest_level (hd : s.dmaTakes = false) : s.atHaltTest.displayLevel = s.displayLevel := by
  obtain ⟨-, hsv, -⟩ := (levelOwned_iff s).mp h
  have hq := atQuery_level h
  cases hp : s.atQuery.pending with
  | true =>
    rw [atHaltTest_pending s hp]
    exact (hsv (by rw [← pending_eq_services s hd, hp])).trans hq
  | false =>
    rw [atHaltTest_quiet s hp]
    exact hq

theorem atTimer_level : s.atTimer.displayLevel = s.displayLevel := by
  obtain ⟨-, -, hx, -⟩ := (levelOwned_iff s).mp h
  unfold State.atTimer
  cases hd : s.dmaTakes with
  | true => exact atQuery_level h
  | false =>
    cases he : s.executes with
    | true => exact (hx he).trans (atHaltTest_level h hd)
    | false => exact atHaltTest_level h hd

theorem atDisplay_level (hc : s.completes = true) : s.atDisplay.displayLevel = s.displayLevel := by
  obtain ⟨-, -, -, ht⟩ := (levelOwned_iff s).mp h
  exact (ht hc).trans (atTimer_level h)

end

theorem bodyDone_level : s.bodyDone.displayLevel = s.atDisplay.displayAnswer.io.display.level :=
  congrArg Display.level (tailDone_display s.atTimer)

/-- With a display that keeps its contract a completed body presents a frame exactly when the level enters `VBlank` in
it. -/
theorem bodyDone_presented_of_displayContract (hc : s.completes = true) (h : s.displayContract = true) :
    s.bodyDone.presented = s.presented ++
      (if s.displayLevel ≠ .vblank ∧ s.bodyDone.displayLevel = .vblank then [s.bodyDone.framebuffer] else []) := by
  simp only [State.displayContract, hc, Bool.not_true, Bool.false_or, Bool.and_eq_true] at h
  obtain ⟨hown, hedge⟩ := h
  simp only [State.faithfulEdge, Bool.and_eq_true, beq_iff_eq] at hedge
  obtain ⟨hedge, -⟩ := hedge
  have ht : s.bodyDone.trans = s.atDisplay.displayAnswer.trans := tailDone_trans s.atTimer
  have hiff : s.bodyDone.trans = some .vblank ↔ s.displayLevel ≠ .vblank ∧ s.bodyDone.displayLevel = .vblank := by
    rw [ht, bodyDone_level, ← atDisplay_level hown hc]
    simpa [DisplayState.isVblank_eq] using Bool.eq_iff_iff.mp hedge
  rw [bodyDone_presented]
  simp only [hiff]

/-! ### The number of presentations -/

/-- How many frames a `FRAME` presents that starts at the level `l`. -/
def framesDue (l : DisplayState) : Nat := if l = .vblank then 0 else 1

/-- How far a `FRAME` is that started at the level `l` with the frames `base` presented: nothing presented while the level
has not been in `VBlank`, and all there is to present from then on. -/
structure FrameProgress (base : List FrameBuffer) (l : DisplayState) (u : State) : Prop where
  before  : u.phase = .f2 → u.displayLevel ≠ .vblank → u.presented = base ∧ l ≠ .vblank
  entered : u.phase = .f2 → u.displayLevel = .vblank → u.presented.length = base.length + framesDue l
  leaving : u.phase = .f3 → u.presented.length = base.length + framesDue l
  done    : u.phase = .idle → u.status = some .ok →
    u.presented.length = base.length + framesDue l ∧ u.displayLevel ≠ .vblank

section

variable {s} {base : List FrameBuffer} {l : DisplayState}

/-- A stuck `FRAME` and one that ended in a fault have nothing more to present. -/
theorem frameProgress_of_stuck {c : Call} (h : s.phase = .stuck c) : FrameProgress base l s :=
  ⟨fun hp => by (rw [h] at hp; cases hp), fun hp => by (rw [h] at hp; cases hp), fun hp => by (rw [h] at hp; cases hp),
    fun hp => by (rw [h] at hp; cases hp)⟩

theorem frameProgress_raiseFault (info : FaultInfo) : FrameProgress base l (s.raiseFault info) :=
  ⟨fun hp => by (cases hp), fun hp => by (cases hp), fun hp => by (cases hp), fun _ hs => by (cases hs)⟩

/-- F2 begins with the level and the presented frames as F1 found them. -/
theorem frameProgress_start (hp : s.phase = .f2) (hb : s.presented = base) (hl : s.displayLevel = l) :
    FrameProgress base l s where
  before _ hv := ⟨hb, hl ▸ hv⟩
  entered _ hv := by rw [hb, framesDue, if_pos (hl.symm.trans hv)]; rfl
  leaving h3 := by rw [hp] at h3; cases h3
  done hi := by rw [hp] at hi; cases hi

/-- A body of F2 that completes presents when the level enters `VBlank`. -/
theorem FrameProgress.bodyF2 (h : FrameProgress base l s) (hp : s.phase = .f2) (hv : s.displayLevel ≠ .vblank)
    (hc : s.readLevel.completes = true) (hd : s.readLevel.displayContract = true) :
    FrameProgress base l s.readLevel.bodyDone := by
  obtain ⟨hb, hl⟩ := h.before hp hv
  have hphase : s.readLevel.bodyDone.phase = .f2 := (sameSetting_bodyDone s.readLevel).phase.trans hp
  have hpres := bodyDone_presented_of_displayContract s.readLevel hc hd
  have hfirst : s.readLevel.displayLevel ≠ .vblank := hv
  have hbase : s.readLevel.presented = base := hb
  refine ⟨fun _ hv' => ?_, fun _ hv' => ?_, fun h3 => ?_, fun hi => ?_⟩
  · rw [if_neg (fun k => hv' k.2), List.append_nil, hbase] at hpres
    exact ⟨hpres, hl⟩
  · rw [if_pos ⟨hfirst, hv'⟩, hbase] at hpres
    rw [hpres, framesDue, if_neg hl]
    exact List.length_append
  · rw [hphase] at h3; cases h3
  · rw [hphase] at hi; cases hi

/-- A body of F3 that completes presents nothing, since the level was in `VBlank` before it. -/
theorem FrameProgress.bodyF3 (h : FrameProgress base l s) (hp : s.phase = .f3) (hv : s.displayLevel = .vblank)
    (hc : s.readLevel.completes = true) (hd : s.readLevel.displayContract = true) :
    FrameProgress base l s.readLevel.bodyDone := by
  have hphase : s.readLevel.bodyDone.phase = .f3 := (sameSetting_bodyDone s.readLevel).phase.trans hp
  have hpres := bodyDone_presented_of_displayContract s.readLevel hc hd
  rw [if_neg (fun k => k.1 hv), List.append_nil] at hpres
  refine ⟨fun h2 => ?_, fun h2 => ?_, fun _ => ?_, fun hi => ?_⟩
  · rw [hphase] at h2; cases h2
  · rw [hphase] at h2; cases h2
  · rw [hpres]; exact h.leaving hp
  · rw [hphase] at hi; cases hi

theorem FrameProgress.step (h : FrameProgress base l s) (hi : s.inLoop = true)
    (hd : s.loopsOn = true → s.readLevel.displayContract = true) : ∃ t, step s = .next t ∧ FrameProgress base l t := by
  rcases step_loop_cases s hi with ⟨-, e⟩ | ⟨-, h2, hv, -, e⟩ | ⟨-, h3, hv, -, e⟩ | ⟨-, ho, h2, h3, e⟩
  · exact ⟨_, e, frameProgress_of_stuck rfl⟩
  · exact ⟨_, e, fun hp => by (cases hp), fun hp => by (cases hp), fun _ => h.entered h2 hv, fun hp => by (cases hp)⟩
  · exact ⟨_, e, fun hp => by (cases hp), fun hp => by (cases hp), fun hp => by (cases hp), fun _ _ => ⟨h.leaving h3, hv⟩⟩
  · refine ⟨_, e, ?_⟩
    rcases stepBody_cases s.readLevel with ⟨-, hc, eb⟩ | ⟨info, -, -, eb⟩ | ⟨_, u, c, _, -, -, -, -, eb⟩ <;> rw [eb]
    · by_cases hv : s.displayLevel = .vblank
      · exact h.bodyF3 (h3.mpr hv) hv hc (hd ho)
      · exact h.bodyF2 (h2.mpr hv) hv hc (hd ho)
    · exact frameProgress_raiseFault info
    · exact frameProgress_of_stuck rfl

theorem FrameProgress.run {t u : State} (h : FrameProgress base l t) (r : FrameRun t u) : FrameProgress base l u := by
  induction r with
  | start => exact h
  | more r hi hd e ih =>
    obtain ⟨v, e', hv⟩ := ih.step hi hd
    cases e.symm.trans e'
    exact hv

end

theorem exec_frame_progress (hf : s.fault = false) (hk : s.begin.inputKeepsLevel = true) :
    ∃ t, exec .frame s = .next t ∧ FrameProgress s.presented s.displayLevel t := by
  rcases exec_frame_cases s hf with ⟨-, e⟩ | ⟨_, u, c, _, -, -, -, -, e⟩
  · exact ⟨_, e, frameProgress_start rfl rfl (beq_iff_eq.mp hk)⟩
  · exact ⟨_, e, frameProgress_of_stuck rfl⟩

/-! ### Runs of the machine -/

theorem core_run_of_succ {n : Nat} {s t : State} (h : Sys2Proof.core.run (n + 1) s = .next t) :
    ∃ u, step s = .next u ∧ Sys2Proof.core.run n u = .next t := by
  obtain ⟨u, e⟩ := step_total s
  exact ⟨u, e, (core_run_succ e).symm.trans h⟩

/-- While the level is outside `VBlank`, every call returns and no body faults, a `FRAME` stays in F2 without a response. -/
theorem run_stays_in_f2 (n : Nat) {s t : State} (hp : s.phase = .f2) (e : Sys2Proof.core.run n s = .next t)
    (hl : ∀ k < n, ∀ v : State, Sys2Proof.core.run k s = .next v → v.displayLevel ≠ .vblank ∧ v.loopReturns = true)
    (hf : ∀ k ≤ n, ∀ v : State, Sys2Proof.core.run k s = .next v → v.fault = false) :
    t.phase = .f2 ∧ t.response = s.response := by
  induction n generalizing s with
  | zero =>
    cases e
    exact ⟨hp, rfl⟩
  | succ n ih =>
    obtain ⟨u, es, eu⟩ := core_run_of_succ e
    obtain ⟨hv, hr⟩ := hl 0 n.succ_pos s rfl
    have hfu : u.fault = false := hf 1 (Nat.succ_le_succ n.zero_le) u (core_run_succ es)
    obtain ⟨hpu, hru⟩ := step_loops_on (inLoop_of_f2 hp) (loopsOn_of_f2 hp hv) hr es hfu
    have hnext : ∀ {k : Nat} {v : State}, Sys2Proof.core.run k u = .next v → Sys2Proof.core.run (k + 1) s = .next v :=
      fun h => (core_run_succ es).trans h
    obtain ⟨hpt, hrt⟩ := ih (hpu.trans hp) eu (fun k hk v hv => hl (k + 1) (Nat.succ_lt_succ hk) v (hnext hv))
      (fun k hk v hv => hf (k + 1) (Nat.succ_le_succ hk) v (hnext hv))
    exact ⟨hpt, hrt.trans hru⟩

end State

open State

/-! ### The statements -/

/-- Settles O33: a command in progress becomes idle by the response of F3 or by a raised fault (`step_becomes_idle`). -/
theorem frameEndsOutsideVblankOrInAFault : Obligations.FrameEndsOutsideVblankOrInAFault := by
  unfold Obligations.FrameEndsOutsideVblankOrInAFault
  intro s t hp hf e ht
  rcases step_becomes_idle s hp e ht with ⟨h3, hv, rfl⟩ | h
  · exact .inl ⟨rfl, hf, h3, hv⟩
  · exact .inr ⟨h.status, h.1⟩

/-- Settles O34: by induction the first tests are in F2, the one that sees `VBlank` goes to F3, by induction the next are
in F3, and the one that sees the level outside `VBlank` responds. -/
theorem frameRespondsWhenTheLevelHasEnteredAndLeftVblank :
    Obligations.FrameRespondsWhenTheLevelHasEnteredAndLeftVblank := by
  unfold Obligations.FrameRespondsWhenTheLevelHasEnteredAndLeftVblank
  intro s r n m hf hr e0 hstep hbefore hat hin hout
  have hphase0 : (r 0).phase = .f2 := by
    rw [Host.Outcome.next.inj (e0.symm.trans (exec_frame_of_inputReturns s hf hr))]
  have h2 : ∀ k ≤ n, (r k).phase = .f2 := by
    intro k hk
    induction k with
    | zero => exact hphase0
    | succ k ih =>
      have hp := ih (by omega)
      obtain ⟨e, -, hret⟩ := hstep k (by omega)
      obtain ⟨-, hf', -⟩ := hstep (k + 1) (by omega)
      obtain ⟨h, -⟩ := step_loops_on (inLoop_of_f2 hp) (loopsOn_of_f2 hp (hbefore k hk)) hret e hf'
      exact h.trans hp
  have hturn : (r (n + 1)).phase = .f3 := by
    obtain ⟨e, -, hret⟩ := hstep n (by omega)
    rw [step_leaves_f2 (h2 n le_rfl) hat hret e]
  have h3 : ∀ k, n < k → k ≤ n + m + 1 → (r k).phase = .f3 := by
    intro k hk
    induction k, hk using Nat.le_induction with
    | base => exact fun _ => hturn
    | succ k hk ih =>
      intro hle
      have hp := ih (by omega)
      obtain ⟨e, -, hret⟩ := hstep k (by omega)
      obtain ⟨-, hf', -⟩ := hstep (k + 1) hle
      obtain ⟨h, -⟩ := step_loops_on (inLoop_of_f3 hp) (loopsOn_of_f3 hp (hin k hk (by omega))) hret e hf'
      exact h.trans hp
  obtain ⟨e, -, hret⟩ := hstep (n + m + 1) le_rfl
  have hlast : r (n + m + 2) = (r (n + m + 1)).readLevel.respond .ok 0 :=
    step_ends_f3 (h3 _ (by omega) le_rfl) hout hret e
  rw [hlast]
  exact ⟨h2, h3, rfl, rfl, hout⟩

/-- Settles O35: `FrameProgress` holds when F2 begins and is kept by every loop test with a display that keeps its
contract, since the level is the display's alone and a frame is presented exactly when it enters `VBlank`. -/
theorem completedFramePresentsExactlyOnceFromOutsideVblank :
    Obligations.CompletedFramePresentsExactlyOnceFromOutsideVblank := by
  unfold Obligations.CompletedFramePresentsExactlyOnceFromOutsideVblank
  intro s t hf e hk u r
  obtain ⟨t', e', ht⟩ := exec_frame_progress s hf hk
  cases e.symm.trans e'
  have hu := ht.run r
  refine ⟨fun hp hv => ?_, hu.leaving, hu.done⟩
  obtain ⟨h, -⟩ := hu.before hp hv
  exact h

end Sys2Proof.Machine
end

section
/-!
SUPPORT. A `FRAME` that does not respond for as many steps as one likes (spec/41_frame.md R150, vector FV8): the DMA Engine
takes every cycle and the level stays `Drawing`; and the statement about it.
-/

namespace Sys2Proof.Machine

namespace State

variable (s : State)

/-! ### A body the DMA Engine takes -/

theorem edgeDone_of_none (h : s.trans = none) : s.edgeDone = s := by rw [State.edgeDone, h]

theorem edgeCalls_of_none (h : s.trans = none) : s.edgeCalls = [] := by rw [State.edgeCalls, h]

/-- A call returns when the answer at the head of the queue says so. -/
theorem returns_of_head {c : Call} {rest : List Bool} (h : s.env.returns = true :: rest) : s.returns c = true := by
  rw [State.returns, h]
  rfl

section

variable {s}

/-- Such a body makes five calls. -/
theorem bodyCalls_of_taken (hd : s.dmaTakes = true) (ht : s.atDisplay.displayAnswer.trans = none) : s.bodyCalls =
    [(s.phaseS1, .cpuCycles), (s.atDma, .dmaTryWork 0), (s.atTimer, .timerAdvance s.atTimer.elapsed s.atTimer.irqAcc),
      (s.atDisplay, .displayAdvance s.atDisplay.elapsed s.atDisplay.irqAcc),
      (s.atMerge, .icMergeRequests s.atMerge.irqAcc)] := by
  rw [State.bodyCalls, if_pos hd, if_pos (completes_of_not_executes s (executes_of_dmaTakes s hd)),
    edgeCalls_of_none _ ht]
  rfl

theorem atMerge_of_none (ht : s.atDisplay.displayAnswer.trans = none) : s.atMerge = s.atDisplay.displayAdvance :=
  edgeDone_of_none _ ht

theorem bodyReturns_of_taken {rest : List Bool} (hd : s.dmaTakes = true) (ht : s.atDisplay.displayAnswer.trans = none)
    (h : s.env.returns = true :: true :: true :: true :: true :: rest) : s.bodyReturns = true := by
  have hdma : s.atDma.env.returns = true :: true :: true :: true :: rest := congrArg List.tail h
  have htimer : s.atTimer.env.returns = true :: true :: true :: rest := by
    rw [atTimer_of_dmaTakes s hd]
    exact congrArg List.tail hdma
  have hdisplay : s.atDisplay.env.returns = true :: true :: rest := congrArg List.tail htimer
  have hmerge : s.atMerge.env.returns = true :: rest := by
    rw [atMerge_of_none ht]
    exact congrArg List.tail hdisplay
  simp only [State.bodyReturns, bodyCalls_of_taken hd ht, allReturn, List.all_cons, List.all_nil, Bool.and_eq_true]
  exact ⟨returns_of_head _ h, returns_of_head _ hdma, returns_of_head _ htimer, returns_of_head _ hdisplay,
    returns_of_head _ hmerge, trivial⟩

/-- What such a body comes to. -/
theorem bodyDone_of_taken (hd : s.dmaTakes = true) (ht : s.atDisplay.displayAnswer.trans = none) :
    s.bodyDone = s.atQuery.dmaTook.timerAdvance.displayAdvance.mergeRequests := by
  have e : s.bodyDone = s.atMerge.mergeRequests := rfl
  rw [e, atMerge_of_none ht, State.atDisplay, atTimer_of_dmaTakes s hd]

end

/-! ### A `FRAME` the DMA Engine keeps busy -/

/-- The answers of a step the DMA Engine takes and in which the level stays `Drawing`. -/
def takenDma : DmaAnswer := { writes := [], io := Config.resetWorld.io, irqAcc := 0, took := true }

def quietTimer : TimerAnswer := { writes := [], io := Config.resetWorld.io, irqAcc := 0 }

def quietDisplay : DisplayAnswer := { writes := [], io := Config.resetWorld.io, irqAcc := 0, trans := none }

/-- The environment answers so in the next `n` loop tests, of six calls each, all of which return. -/
def takenEnvironment (n : Nat) : Environment :=
  { Environment.empty with
    dmaTryWork := List.replicate n takenDma
    timerAdvance := List.replicate n quietTimer
    displayAdvance := List.replicate n quietDisplay
    returns := List.replicate (6 * n) true }

/-- A `FRAME` in F2, outside `VBlank`, with such an environment for the next `n` tests. -/
structure Spinning (n : Nat) (s : State) : Prop where
  phase    : s.phase = .f2
  response : s.response = none
  level    : s.displayLevel = .drawing
  dma      : s.env.dmaTryWork = List.replicate n takenDma
  timer    : s.env.timerAdvance = List.replicate n quietTimer
  display  : s.env.displayAdvance = List.replicate n quietDisplay
  returns  : s.env.returns = List.replicate (6 * n) true

/-- One test of such a `FRAME`: it stays one, the DMA Engine was asked once more and took the cycle, and the counter stands
still. -/
structure SpinsTo (n : Nat) (s t : State) : Prop where
  spinning : Spinning n t
  cycles   : t.cycles = s.cycles
  asked    : countOps 4 t.trace = countOps 4 s.trace + 1
  took     : t.took = true

theorem Spinning.step {n : Nat} {s : State} (h : Spinning (n + 1) s) : ∃ t, step s = .next t ∧ SpinsTo n s t := by
  have hret : s.env.returns = true :: true :: true :: true :: true :: true :: List.replicate (6 * n) true := h.returns
  have hdma : s.readLevel.atDma.dmaAnswer = takenDma.atWidths s.build := by
    show (s.env.dmaTryWork.head?.getD _).atWidths s.build = _
    rw [h.dma]
    rfl
  have hd : s.readLevel.dmaTakes = true := by rw [State.dmaTakes, hdma]; rfl
  have hdisplay : s.readLevel.atDisplay.displayAnswer = quietDisplay.atWidths s.build := by
    rw [State.atDisplay, atTimer_of_dmaTakes _ hd]
    show (s.env.displayAdvance.head?.getD _).atWidths s.build = _
    rw [h.display]
    rfl
  have ht : s.readLevel.atDisplay.displayAnswer.trans = none := by rw [hdisplay]; rfl
  have hv : s.displayLevel ≠ .vblank := by rw [h.level]; exact nofun
  have hb : s.readLevel.bodyReturns = true := bodyReturns_of_taken hd ht (congrArg List.tail hret)
  have e := step_of_loopsOn s (inLoop_of_f2 h.phase) (returns_of_head s hret) (loopsOn_of_f2 h.phase hv)
  have hc := completes_of_not_executes _ (executes_of_dmaTakes _ hd)
  rw [stepBody_of_completes _ hb hc, state_completed] at e
  have hlevel : s.readLevel.bodyDone.displayLevel = .drawing := by rw [bodyDone_level, hdisplay]; rfl
  have htook : s.readLevel.bodyDone.took = true := by rw [bodyDone_took, atTimer_took, hd]
  rw [bodyDone_of_taken hd ht] at e hlevel htook
  refine ⟨_, e, ⟨h.phase, h.response, hlevel, ?_, ?_, ?_, ?_⟩, rfl, ?_, htook⟩
  · exact congrArg List.tail h.dma
  · exact congrArg List.tail h.timer
  · exact congrArg List.tail h.display
  · show s.env.returns.tail.tail.tail.tail.tail.tail = _
    rw [hret]
    rfl
  · simp [State.atQuery, State.atDma, countOps, MicroOp.id]

/-- Such a `FRAME` after each number of steps its environment provides for. -/
theorem Spinning.run {n k : Nat} {s : State} (h : Spinning n s) (hk : k ≤ n) :
    ∃ t, Sys2Proof.core.run k s = .next t ∧ t.phase = .f2 ∧ t.response = none ∧ t.cycles = s.cycles ∧
      countOps 4 t.trace = countOps 4 s.trace + k ∧ (0 < k → t.took = true) := by
  induction k generalizing n s with
  | zero => exact ⟨s, rfl, h.phase, h.response, rfl, rfl, nofun⟩
  | succ k ih =>
    obtain ⟨m, rfl⟩ : ∃ m, n = m + 1 := ⟨n - 1, by omega⟩
    obtain ⟨u, e, hu⟩ := h.step
    obtain ⟨t, et, hp, hr, hcyc, hcount, htook⟩ := ih hu.spinning (Nat.le_of_succ_le_succ hk)
    refine ⟨t, (core_run_succ e).trans et, hp, hr, hcyc.trans hu.cycles, ?_, fun _ => ?_⟩
    · rw [hcount, hu.asked]
      omega
    · cases k with
      | zero => cases et; exact hu.took
      | succ k => exact htook k.succ_pos

/-- A `FRAME` of the reset machine with such an environment. -/
def spinningFrame (n : Nat) : State := { State.reset with phase := .f2, env := takenEnvironment n }

theorem spinning_spinningFrame (n : Nat) : Spinning n (spinningFrame n) := ⟨rfl, rfl, rfl, rfl, rfl, rfl, rfl⟩

end State

open State

/-- Settles O36: by induction over the steps F2 is not left (`run_stays_in_f2`); and `spinningFrame n` is a `FRAME` whose
first `n` bodies the DMA Engine takes, with the level always `Drawing` (`Spinning.run`). -/
theorem frameCanRunForAnyNumberOfStepsWithoutResponse : Obligations.FrameCanRunForAnyNumberOfStepsWithoutResponse := by
  unfold Obligations.FrameCanRunForAnyNumberOfStepsWithoutResponse
  refine ⟨fun n s t hp e hl hf => run_stays_in_f2 n hp e hl hf, fun n => ?unbounded⟩
  case unbounded => exact ⟨spinningFrame n, rfl, rfl, fun k hk => (spinning_spinningFrame n).run hk⟩

end Sys2Proof.Machine
end

section
/-!
SUPPORT. Two runs of the same inputs side by side (spec/10_state.md R10, spec/43_collaborator_ops.md R200): a state under a
guise (`State.disguised`) has other transient registers, another sequencer position, another caller and other frames
presented before, and a body under a guise makes the same calls in states that are the old ones under a guise.
-/

namespace Sys2Proof.Machine

/-- What a command does not look at before it has written it: the transient registers (R10 to R15), and what only the
outside looks at. -/
structure Guise where
  irqAcc    : IrqMask
  start     : Nat
  elapsed   : Nat
  took      : Bool
  trans     : Option DisplayState
  phase     : Phase
  caller    : List CallerAction
  presented : List FrameBuffer

namespace Guise

variable (g : Guise) (s : State)

/-- From S3 on `irq_acc`, `start` and `took` are the state's own. -/
def afterS3 : Guise := { g with irqAcc := s.irqAcc, start := s.start, took := s.took }

/-- From S6 on `elapsed` is too. -/
def afterS5 : Guise := { g.afterS3 s with elapsed := s.elapsed }

/-- After the display's advance every transient register is. -/
def afterDisplay : Guise := { g.afterS5 s with trans := s.trans }

end Guise

namespace State

variable (s : State)

/-- The state under a guise. -/
def disguised (g : Guise) : State :=
  { s with
    irqAcc := g.irqAcc
    start := g.start
    elapsed := g.elapsed
    took := g.took
    trans := g.trans
    phase := g.phase
    caller := g.caller
    presented := g.presented }

/-! ### The states of a body under a guise -/

section

variable (g : Guise)

theorem phaseS1_disguised : (s.disguised g).phaseS1 = s.phaseS1.disguised { g with irqAcc := 0 } := rfl

theorem atDma_disguised : (s.disguised g).atDma = s.atDma.disguised { g with irqAcc := 0, start := s.cycles } := rfl

theorem atQuery_disguised : (s.disguised g).atQuery = s.atQuery.disguised (g.afterS3 s.atQuery) := rfl

theorem atService_disguised : (s.disguised g).atService = s.atService.disguised (g.afterS3 s.atService) := rfl

theorem atWake_disguised : (s.disguised g).atWake = s.atWake.disguised (g.afterS3 s.atWake) := rfl

theorem dmaTakes_disguised : (s.disguised g).dmaTakes = s.dmaTakes := rfl

theorem services_disguised : (s.disguised g).services = s.services := rfl

theorem atHaltTest_disguised : (s.disguised g).atHaltTest = s.atHaltTest.disguised (g.afterS3 s.atHaltTest) := by
  cases hp : s.atQuery.pending with
  | true =>
    have hp' : (s.disguised g).atQuery.pending = true := hp
    rw [atHaltTest_pending _ hp', atHaltTest_pending s hp]
    rfl
  | false =>
    have hp' : (s.disguised g).atQuery.pending = false := hp
    rw [atHaltTest_quiet _ hp', atHaltTest_quiet s hp]
    rfl

theorem executes_disguised : (s.disguised g).executes = s.executes := by
  rw [State.executes, atHaltTest_disguised]
  rfl

theorem atCpuStep_disguised : (s.disguised g).atCpuStep = s.atCpuStep.disguised (g.afterS3 s.atCpuStep) := by
  rw [State.atCpuStep, atHaltTest_disguised]
  rfl

theorem cpuStepAnswer_disguised : (s.disguised g).atCpuStep.cpuStepAnswer = s.atCpuStep.cpuStepAnswer := by
  rw [atCpuStep_disguised]
  rfl

theorem completes_disguised : (s.disguised g).completes = s.completes := by
  rw [State.completes, executes_disguised, cpuStepAnswer_disguised]
  rfl

theorem cpuStep_disguised : (s.disguised g).atCpuStep.cpuStep =
    s.atCpuStep.cpuStep.disguised (g.afterS3 s.atCpuStep.cpuStep) := by
  rw [atCpuStep_disguised]
  rfl

theorem atTimer_disguised : (s.disguised g).atTimer = s.atTimer.disguised (g.afterS5 s.atTimer) := by
  rw [State.atTimer, State.atTimer, dmaTakes_disguised, executes_disguised]
  cases s.dmaTakes with
  | true => rfl
  | false =>
    cases s.executes with
    | true =>
      simp only [Bool.false_eq_true, if_false, if_true, State.executed, cpuStep_disguised]
      rfl
    | false =>
      simp only [Bool.false_eq_true, if_false, State.idled, atHaltTest_disguised]
      rfl

theorem atDisplay_disguised : (s.disguised g).atDisplay = s.atDisplay.disguised (g.afterS5 s.atDisplay) := by
  rw [State.atDisplay, atTimer_disguised]
  rfl

theorem displayAdvance_disguised : (s.disguised g).atDisplay.displayAdvance =
    s.atDisplay.displayAdvance.disguised (g.afterDisplay s.atDisplay.displayAdvance) := by
  rw [atDisplay_disguised]
  rfl

theorem edgeDone_of_vblank (h : s.trans = some .vblank) :
    s.edgeDone = (s.readFramebuffer.present s.framebuffer).notifyVblank := by rw [State.edgeDone, h]

theorem edgeDone_of_hblank (h : s.trans = some .hblank) : s.edgeDone = s.notifyHblank := by rw [State.edgeDone, h]

theorem edgeDone_of_quiet (hv : s.trans ≠ some .vblank) (hh : s.trans ≠ some .hblank) : s.edgeDone = s := by
  unfold State.edgeDone
  split
  · exact absurd ‹_› hv
  · exact absurd ‹_› hh
  · rfl
  · rfl
  · rfl

/-- What S7 presents is appended to what was presented before. -/
theorem edgeDone_disguised (h : g.trans = s.trans) : (s.disguised g).edgeDone = s.edgeDone.disguised
    { g with presented := g.presented ++ (if s.trans = some .vblank then [s.framebuffer] else []) } := by
  have h' : (s.disguised g).trans = s.trans := h
  by_cases hv : s.trans = some .vblank
  · rw [edgeDone_of_vblank s hv, edgeDone_of_vblank _ (h'.trans hv), if_pos hv]
    rfl
  · rw [if_neg hv, List.append_nil]
    by_cases hh : s.trans = some .hblank
    · rw [edgeDone_of_hblank s hh, edgeDone_of_hblank _ (h'.trans hh)]
      rfl
    · rw [edgeDone_of_quiet s hv hh, edgeDone_of_quiet _ (h' ▸ hv) (h' ▸ hh)]

/-- The frames a body presents. -/
def bodyFrames : List FrameBuffer :=
  if s.atDisplay.displayAdvance.trans = some .vblank then [s.atDisplay.displayAdvance.framebuffer] else []

theorem atMerge_disguised : (s.disguised g).atMerge = s.atMerge.disguised
    { g.afterDisplay s.atMerge with presented := g.presented ++ s.bodyFrames } := by
  rw [State.atMerge, displayAdvance_disguised, edgeDone_disguised _ _ rfl]
  simp only [Guise.afterDisplay, Guise.afterS5, Guise.afterS3, State.atMerge, edgeDone_irqAcc, edgeDone_start,
    edgeDone_took, edgeDone_elapsed, edgeDone_trans]
  rfl

theorem bodyDone_disguised : (s.disguised g).bodyDone = s.bodyDone.disguised
    { g.afterDisplay s.bodyDone with presented := g.presented ++ s.bodyFrames } := by
  have e : ∀ t : State, t.bodyDone = t.atMerge.mergeRequests := fun _ => rfl
  rw [e, atMerge_disguised, e]
  rfl

end

/-! ### Two states alike -/

/-- The callers' lists are those of `s₀` and of `t₀`, and the frames `d` have been presented since. -/
structure GuiseFits (s₀ t₀ s : State) (g : Guise) (d : List FrameBuffer) : Prop where
  caller         : s.caller = s₀.caller
  guiseCaller    : g.caller = t₀.caller
  presented      : s.presented = s₀.presented ++ d
  guisePresented : g.presented = t₀.presented ++ d

/-- `s` and `t` are what `s₀` and `t₀` have become in the same way: the same state under a guise. -/
def Alike (s₀ t₀ s t : State) : Prop := ∃ g d, t = s.disguised g ∧ GuiseFits s₀ t₀ s g d

/-- Two calls of the same micro-operation, in states alike. -/
def AlikeCalls (s₀ t₀ : State) (x y : State × Call) : Prop := Alike s₀ t₀ x.1 y.1 ∧ x.2 = y.2

/-- The first call of the list that does not return is `c`, made in `u`. -/
def StuckAt (cs : List (State × Call)) (u : State) (c : Call) : Prop :=
  ∃ pre post, cs = pre ++ (u, c) :: post ∧ allReturn pre = true ∧ u.returns c = false

section

variable {s₀ t₀ s t : State}

theorem Alike.returns {c : Call} (h : Alike s₀ t₀ s t) : t.returns c = s.returns c := by
  obtain ⟨g, d, rfl, -⟩ := h
  rfl

/-- Of two lists of calls alike, either all return, or both are stuck at the same call. -/
theorem alikeCalls_cases {cs ds : List (State × Call)} (h : List.Forall₂ (AlikeCalls s₀ t₀) cs ds) :
    (allReturn cs = true ∧ allReturn ds = true) ∨
      ∃ u v c, StuckAt cs u c ∧ StuckAt ds v c ∧ Alike s₀ t₀ u v := by
  induction h with
  | nil => exact .inl ⟨rfl, rfl⟩
  | @cons x y cs ds hxy _ ih =>
    obtain ⟨u, c⟩ := x
    obtain ⟨v, c'⟩ := y
    obtain ⟨huv, rfl⟩ : Alike s₀ t₀ u v ∧ c = c' := hxy
    cases hu : u.returns c with
    | false => exact .inr ⟨u, v, c, ⟨[], cs, rfl, rfl, hu⟩, ⟨[], ds, rfl, rfl, huv.returns.trans hu⟩, huv⟩
    | true =>
      have hv : v.returns c = true := huv.returns.trans hu
      rcases ih with ⟨hcs, hds⟩ | ⟨u', v', c', ⟨pre, post, hcs, hpre, hu'⟩, ⟨pre', post', hds, hpre', hv'⟩, huv'⟩
      · refine .inl ⟨?_, ?_⟩ <;> rw [allReturn, List.all_cons, Bool.and_eq_true]
        · exact ⟨hu, hcs⟩
        · exact ⟨hv, hds⟩
      · refine .inr ⟨u', v', c', ⟨(u, c) :: pre, post, ?_, ?_, hu'⟩, ⟨(v, c) :: pre', post', ?_, ?_, hv'⟩, huv'⟩
        · rw [hcs]; rfl
        · rw [allReturn, List.all_cons, Bool.and_eq_true]; exact ⟨hu, hpre⟩
        · rw [hds]; rfl
        · rw [allReturn, List.all_cons, Bool.and_eq_true]; exact ⟨hv, hpre'⟩

/-! ### The calls of a body under a guise -/

theorem forall₂_ite {α β : Type} {R : α → β → Prop} {p q : Prop} [Decidable p] [Decidable q]
    {as bs : List α} {cs ds : List β} (hpq : q ↔ p) (h : p → List.Forall₂ R as cs) (k : ¬p → List.Forall₂ R bs ds) :
    List.Forall₂ R (if p then as else bs) (if q then cs else ds) := by
  by_cases hp : p
  · rw [if_pos hp, if_pos (hpq.mpr hp)]
    exact h hp
  · rw [if_neg hp, if_neg (hpq.not.mpr hp)]
    exact k hp

theorem edgeCalls_of_vblank (s : State) (h : s.trans = some .vblank) : s.edgeCalls =
    [(s, .displayFramebuffer), (s.readFramebuffer, .backendPresent s.framebuffer),
      (s.readFramebuffer.present s.framebuffer, .dmaNotifyVblank)] := by rw [State.edgeCalls, h]

theorem edgeCalls_of_hblank (s : State) (h : s.trans = some .hblank) : s.edgeCalls = [(s, .dmaNotifyHblank)] := by
  rw [State.edgeCalls, h]

theorem edgeCalls_of_quiet (s : State) (hv : s.trans ≠ some .vblank) (hh : s.trans ≠ some .hblank) :
    s.edgeCalls = [] := by
  unfold State.edgeCalls
  split
  · exact absurd ‹_› hv
  · exact absurd ‹_› hh
  · rfl
  · rfl
  · rfl

/-- Where neither the caller nor the frames were touched, a state under a guise is alike still. -/
theorem GuiseFits.alike {g g' : Guise} {u : State} {d : List FrameBuffer} (h : GuiseFits s₀ t₀ s g d)
    (hc : u.caller = s.caller) (hp : u.presented = s.presented) (hgc : g'.caller = g.caller)
    (hgp : g'.presented = g.presented) : Alike s₀ t₀ u (u.disguised g') :=
  ⟨g', d, rfl, hc.trans h.caller, hgc.trans h.guiseCaller, hp.trans h.presented, hgp.trans h.guisePresented⟩

/-- Where the same frames were presented, too. -/
theorem GuiseFits.alike_presented {g g' : Guise} {u : State} {d e : List FrameBuffer} (h : GuiseFits s₀ t₀ s g d)
    (hc : u.caller = s.caller) (hp : u.presented = s.presented ++ e) (hgc : g'.caller = g.caller)
    (hgp : g'.presented = g.presented ++ e) : Alike s₀ t₀ u (u.disguised g') := by
  refine ⟨g', d ++ e, rfl, hc.trans h.caller, hgc.trans h.guiseCaller, ?_, ?_⟩
  · rw [hp, h.presented, List.append_assoc]
  · rw [hgp, h.guisePresented, List.append_assoc]

/-- Under a guise with the state's own notification S7 makes calls alike. -/
theorem alike_edgeCalls {g : Guise} {d : List FrameBuffer} (ht : g.trans = s.trans) (h : GuiseFits s₀ t₀ s g d) :
    List.Forall₂ (AlikeCalls s₀ t₀) s.edgeCalls (s.disguised g).edgeCalls := by
  have ht' : (s.disguised g).trans = s.trans := ht
  have hs : Alike s₀ t₀ s (s.disguised g) := h.alike rfl rfl rfl rfl
  by_cases hv : s.trans = some .vblank
  · rw [edgeCalls_of_vblank s hv, edgeCalls_of_vblank _ (ht'.trans hv)]
    have hread : Alike s₀ t₀ s.readFramebuffer (s.readFramebuffer.disguised g) := h.alike rfl rfl rfl rfl
    have hpresent : Alike s₀ t₀ (s.readFramebuffer.present s.framebuffer)
        ((s.disguised g).readFramebuffer.present s.framebuffer) :=
      h.alike_presented (g' := { g with presented := g.presented ++ [s.framebuffer] }) rfl rfl rfl rfl
    exact .cons ⟨hs, rfl⟩ (.cons ⟨hread, rfl⟩ (.cons ⟨hpresent, rfl⟩ .nil))
  · by_cases hh : s.trans = some .hblank
    · rw [edgeCalls_of_hblank s hh, edgeCalls_of_hblank _ (ht'.trans hh)]
      exact .cons ⟨hs, rfl⟩ .nil
    · rw [edgeCalls_of_quiet s hv hh, edgeCalls_of_quiet _ (ht' ▸ hv) (ht' ▸ hh)]
      exact .nil

theorem atHaltTest_presented (s : State) : s.atHaltTest.presented = s.presented := by
  obtain ⟨-, -, -, h⟩ := atHaltTest_keeps s
  exact h

theorem atTimer_caller (s : State) : s.atTimer.caller = s.caller :=
  ((keptByBody_sameSetting s).atTimer (.refl s)).caller

theorem alike_cpuCalls {g : Guise} {d : List FrameBuffer} (h : GuiseFits s₀ t₀ s g d) :
    List.Forall₂ (AlikeCalls s₀ t₀) s.cpuCalls (s.disguised g).cpuCalls := by
  have hc : s.atHaltTest.caller = s.caller := (sameSetting_atHaltTest s).caller
  have hp := atHaltTest_presented s
  rw [State.cpuCalls, State.cpuCalls, atQuery_disguised, atService_disguised, atWake_disguised, atHaltTest_disguised,
    cpuStep_disguised, atCpuStep_disguised]
  refine List.rel_append (List.rel_append (List.rel_append ?query ?entry) ?haltTest) ?instruction
  case query => exact .cons ⟨h.alike rfl rfl rfl rfl, rfl⟩ .nil
  case entry =>
    exact forall₂_ite (by rw [services_disguised])
      (fun _ => .cons ⟨h.alike rfl rfl rfl rfl, rfl⟩ (.cons ⟨h.alike rfl rfl rfl rfl, rfl⟩ .nil)) (fun _ => .nil)
  case haltTest => exact .cons ⟨h.alike hc hp rfl rfl, rfl⟩ .nil
  case instruction =>
    refine forall₂_ite (by rw [executes_disguised]) (fun _ => .cons ⟨h.alike hc hp rfl rfl, rfl⟩ ?_) (fun _ => .nil)
    exact forall₂_ite (by rw [completes_disguised]) (fun _ => .cons ⟨h.alike hc hp rfl rfl, rfl⟩ .nil) (fun _ => .nil)

theorem atMerge_presented (s : State) : s.atMerge.presented = s.presented ++ s.bodyFrames := by
  rw [← atTimer_presented s]
  exact edgeDone_presented s.atDisplay.displayAdvance

theorem alike_tailCalls {g : Guise} {d : List FrameBuffer} (h : GuiseFits s₀ t₀ s g d) :
    List.Forall₂ (AlikeCalls s₀ t₀)
      ([(s.atTimer, .timerAdvance s.atTimer.elapsed s.atTimer.irqAcc),
          (s.atDisplay, .displayAdvance s.atDisplay.elapsed s.atDisplay.irqAcc)]
        ++ s.atDisplay.displayAdvance.edgeCalls ++ [(s.atMerge, .icMergeRequests s.atMerge.irqAcc)])
      ([((s.disguised g).atTimer, .timerAdvance (s.disguised g).atTimer.elapsed (s.disguised g).atTimer.irqAcc),
          ((s.disguised g).atDisplay,
            .displayAdvance (s.disguised g).atDisplay.elapsed (s.disguised g).atDisplay.irqAcc)]
        ++ (s.disguised g).atDisplay.displayAdvance.edgeCalls
        ++ [((s.disguised g).atMerge, .icMergeRequests (s.disguised g).atMerge.irqAcc)]) := by
  have hc := atTimer_caller s
  have hp := atTimer_presented s
  have hmc : s.atMerge.caller = s.caller := (sameSetting_bodyDone s).caller
  rw [atTimer_disguised, displayAdvance_disguised, atDisplay_disguised, atMerge_disguised]
  refine List.rel_append (List.rel_append ?advances ?edge) ?merge
  case advances => exact .cons ⟨h.alike hc hp rfl rfl, rfl⟩ (.cons ⟨h.alike hc hp rfl rfl, rfl⟩ .nil)
  case edge => exact alike_edgeCalls rfl ⟨hc.trans h.caller, h.guiseCaller, hp.trans h.presented, h.guisePresented⟩
  case merge => exact .cons ⟨h.alike_presented hmc (atMerge_presented s) rfl rfl, rfl⟩ .nil

theorem Alike.bodyCalls (h : Alike s₀ t₀ s t) : List.Forall₂ (AlikeCalls s₀ t₀) s.bodyCalls t.bodyCalls := by
  obtain ⟨g, d, rfl, h⟩ := h
  rw [State.bodyCalls, State.bodyCalls, phaseS1_disguised, atDma_disguised]
  refine List.rel_append (List.rel_append ?dma ?cpu) ?tail
  case dma => exact .cons ⟨h.alike rfl rfl rfl rfl, rfl⟩ (.cons ⟨h.alike rfl rfl rfl rfl, rfl⟩ .nil)
  case cpu => exact forall₂_ite (by rw [dmaTakes_disguised]) (fun _ => .nil) (fun _ => alike_cpuCalls h)
  case tail => exact forall₂_ite (by rw [completes_disguised]) (fun _ => alike_tailCalls h) (fun _ => .nil)

/-! ### The ends of a body under a guise -/

theorem Alike.bodyDone (h : Alike s₀ t₀ s t) : Alike s₀ t₀ s.bodyDone t.bodyDone := by
  obtain ⟨g, d, rfl, h⟩ := h
  rw [bodyDone_disguised]
  exact h.alike_presented (sameSetting_bodyDone s).caller (atMerge_presented s) rfl rfl

theorem Alike.cpuStep (h : Alike s₀ t₀ s t) : Alike s₀ t₀ s.atCpuStep.cpuStep t.atCpuStep.cpuStep := by
  obtain ⟨g, d, rfl, h⟩ := h
  rw [cpuStep_disguised]
  exact h.alike (sameSetting_cpuStep s).caller (cpuStepDone_presented s) rfl rfl

theorem Alike.completes (h : Alike s₀ t₀ s t) : t.completes = s.completes := by
  obtain ⟨g, d, rfl, -⟩ := h
  exact completes_disguised s g

theorem Alike.faultsWith {info : FaultInfo} (h : Alike s₀ t₀ s t) (hx : s.faultsWith info) : t.faultsWith info := by
  obtain ⟨g, d, rfl, -⟩ := h
  rw [State.faultsWith, executes_disguised, cpuStepAnswer_disguised]
  exact hx

/-- Bodies of states alike end alike. -/
theorem Alike.stepBody (h : Alike s₀ t₀ s t) :
    (∃ u v, s.stepBody = .completed u ∧ t.stepBody = .completed v ∧ Alike s₀ t₀ u v ∧ u.phase = s.phase ∧
      v.phase = t.phase) ∨
    (∃ u v info, s.stepBody = .raised (u.raiseFault info) ∧ t.stepBody = .raised (v.raiseFault info) ∧
      Alike s₀ t₀ u v) ∨
    (∃ u v c, s.stepBody = .stuck (u.hang c) ∧ t.stepBody = .stuck (v.hang c) ∧ Alike s₀ t₀ u v) := by
  rcases alikeCalls_cases h.bodyCalls with ⟨hs, ht⟩ |
    ⟨u, v, c, ⟨pre, post, hcs, hpre, hu⟩, ⟨pre', post', hct, hpre', hv⟩, huv⟩
  · cases hc : s.completes with
    | true =>
      exact .inl ⟨_, _, stepBody_of_completes s hs hc, stepBody_of_completes t ht (h.completes.trans hc), h.bodyDone,
        (sameSetting_bodyDone s).phase, (sameSetting_bodyDone t).phase⟩
    | false =>
      obtain ⟨info, hx⟩ := faultsWith_of_not_completes s hc
      exact .inr (.inl ⟨_, _, info, stepBody_of_faultsWith s hs hx, stepBody_of_faultsWith t ht (h.faultsWith hx),
        h.cpuStep⟩)
  · exact .inr (.inr ⟨u, v, c, stepBody_of_stuck hcs hpre hu, stepBody_of_stuck hct hpre' hv, huv⟩)

end

end State

end Sys2Proof.Machine
end

section
/-!
SUPPORT. Commands and loop tests of states alike end alike (spec/10_state.md R10, R30); a machine in whose environment no
answer waits keeps it so (`State.deterministic`, spec/43_collaborator_ops.md R200); and the two statements: nothing is
carried in the transient registers, and equal worlds give equal traces.
-/

namespace Sys2Proof.Machine

namespace State

/-! ### Ends alike -/

/-- Alike, and with the sequencer at the same place. -/
structure AlikeEnd (s₀ t₀ u v : State) : Prop where
  alike : Alike s₀ t₀ u v
  phase : v.phase = u.phase

section

variable {s₀ t₀ s t : State} (h : Alike s₀ t₀ s t)

include h

theorem Alike.respond (st : Status) (a : Addr) : AlikeEnd s₀ t₀ (s.respond st a) (t.respond st a) := by
  obtain ⟨g, d, rfl, h⟩ := h
  exact ⟨h.alike (g' := { g with phase := .idle }) rfl rfl rfl rfl, rfl⟩

theorem Alike.refuse : AlikeEnd s₀ t₀ s.refuse t.refuse := by
  obtain ⟨g, d, rfl, h⟩ := h
  exact ⟨h.alike (g' := { g with phase := .idle }) rfl rfl rfl rfl, rfl⟩

theorem Alike.raiseFault (info : FaultInfo) : AlikeEnd s₀ t₀ (s.raiseFault info) (t.raiseFault info) := by
  obtain ⟨g, d, rfl, h⟩ := h
  exact ⟨h.alike (g' := { g with phase := .idle }) rfl rfl rfl rfl, rfl⟩

theorem Alike.hang (c : Call) : AlikeEnd s₀ t₀ (s.hang c) (t.hang c) := by
  obtain ⟨g, d, rfl, h⟩ := h
  exact ⟨h.alike (g' := { g with phase := .stuck c }) rfl rfl rfl rfl, rfl⟩

theorem Alike.atPhase (p : Phase) : AlikeEnd s₀ t₀ { s with phase := p } { t with phase := p } := by
  obtain ⟨g, d, rfl, h⟩ := h
  exact ⟨h.alike (g' := { g with phase := p }) rfl rfl rfl rfl, rfl⟩

theorem Alike.log (op : MicroOp) : Alike s₀ t₀ (s.log op) (t.log op) := by
  obtain ⟨g, d, rfl, h⟩ := h
  exact h.alike (u := s.log op) (g' := g) rfl rfl rfl rfl

theorem Alike.addBp (a : Addr) : Alike s₀ t₀ { s with bp := s.bp ++ [a] } { t with bp := t.bp ++ [a] } := by
  obtain ⟨g, d, rfl, h⟩ := h
  exact h.alike (u := { s with bp := s.bp ++ [a] }) (g' := g) rfl rfl rfl rfl

theorem Alike.inputDone : Alike s₀ t₀ s.inputDone t.inputDone := by
  obtain ⟨g, d, rfl, h⟩ := h
  exact h.alike (u := s.inputDone) (g' := g) rfl rfl rfl rfl

theorem Alike.inputCalls : List.Forall₂ (AlikeCalls s₀ t₀) s.inputCalls t.inputCalls := by
  obtain ⟨g, d, rfl, h⟩ := h
  exact .cons ⟨⟨g, d, rfl, h⟩, rfl⟩ (.cons ⟨h.alike (u := s.pollInput) (g' := g) rfl rfl rfl rfl, rfl⟩ .nil)

/-- The registers and the build are no part of a guise. -/
theorem Alike.registers : t.fault = s.fault ∧ t.bp = s.bp ∧ t.build = s.build ∧ t.world = s.world := by
  obtain ⟨g, d, rfl, -⟩ := h
  exact ⟨rfl, rfl, rfl, rfl⟩

end

/-! ### Commands of states alike -/

/-- The outcomes of `s` and `t` are next states that end alike. -/
def AlikeOutcomes (s₀ t₀ : State) (x y : Host.Outcome State Fault Refusal) : Prop :=
  ∃ u v, x = .next u ∧ y = .next v ∧ AlikeEnd s₀ t₀ u v

section

variable {s₀ t₀ s t : State}

theorem exec_step_alike (h : Alike s₀ t₀ s.begin t.begin) (hf : s.fault = false) (hf' : t.fault = false) :
    AlikeOutcomes s₀ t₀ (exec .step s) (exec .step t) := by
  have Es := exec_step_eq s hf
  have Et := exec_step_eq t hf'
  rcases h.stepBody with ⟨u, v, eu, ev, huv, -⟩ | ⟨u, v, info, eu, ev, huv⟩ | ⟨u, v, c, eu, ev, huv⟩ <;>
    rw [eu] at Es <;> rw [ev] at Et
  · exact ⟨_, _, Es, Et, huv.respond .ok 0⟩
  · exact ⟨_, _, Es, Et, huv.raiseFault info⟩
  · exact ⟨_, _, Es, Et, huv.hang c⟩

theorem exec_frame_alike (h : Alike s₀ t₀ s.begin t.begin) (hf : s.fault = false) (hf' : t.fault = false) :
    AlikeOutcomes s₀ t₀ (exec .frame s) (exec .frame t) := by
  rcases alikeCalls_cases h.inputCalls with ⟨hs, ht⟩ |
    ⟨u, v, c, ⟨pre, post, hcs, hpre, hu⟩, ⟨pre', post', hct, hpre', hv⟩, huv⟩
  · exact ⟨_, _, exec_frame_of_inputReturns s hf hs, exec_frame_of_inputReturns t hf' ht, h.inputDone.atPhase .f2⟩
  · exact ⟨_, _, exec_frame_of_stuck hf hcs hpre hu, exec_frame_of_stuck hf' hct hpre' hv, huv.hang c⟩

theorem exec_addBreakpoint_alike (a : Addr) (h : Alike s₀ t₀ s.begin t.begin) (hf : s.fault = false)
    (hf' : t.fault = false) : AlikeOutcomes s₀ t₀ (exec (.addBreakpoint a) s) (exec (.addBreakpoint a) t) := by
  obtain ⟨-, hbp, hbuild, -⟩ : _ ∧ t.bp = s.bp ∧ t.build = s.build ∧ _ := h.registers
  by_cases ha : a ∈ s.bp
  · exact ⟨_, _, exec_addBreakpoint_duplicate s a hf ha, exec_addBreakpoint_duplicate t a hf' (hbp ▸ ha), h.respond _ _⟩
  · by_cases hm : s.build.bpMax = some s.bp.length
    · exact ⟨_, _, exec_addBreakpoint_full s a hf ha hm, exec_addBreakpoint_full t a hf' (hbp ▸ ha) (by rw [hbuild, hbp, hm]),
        h.respond _ _⟩
    · refine ⟨_, _, exec_addBreakpoint_new s a hf ha hm,
        exec_addBreakpoint_new t a hf' (hbp ▸ ha) (by rw [hbuild, hbp]; exact hm), ?_⟩
      rw [show positionData t.build.addrW t.bp = positionData s.build.addrW s.bp by rw [hbuild, hbp]]
      exact (h.addBp a).respond _ _

theorem exec_checkBreakpoint_alike (h : Alike s₀ t₀ s.begin t.begin) (hf : s.fault = false) (hf' : t.fault = false) :
    AlikeOutcomes s₀ t₀ (exec .checkBreakpoint s) (exec .checkBreakpoint t) := by
  obtain ⟨-, hbp, -, hworld⟩ : _ ∧ t.bp = s.bp ∧ _ ∧ t.world = s.world := h.registers
  have hpc : t.nextPc = s.nextPc := congrArg (fun w : World => w.cpu.nextPc) hworld
  cases hr : s.begin.returns .cpuNextPc with
  | false =>
    exact ⟨_, _, exec_checkBreakpoint_stuck s hf hr, exec_checkBreakpoint_stuck t hf' (h.returns.trans hr), h.hang _⟩
  | true =>
    have hr' := h.returns.trans hr
    by_cases hm : s.nextPc ∈ s.bp
    · refine ⟨_, _, exec_checkBreakpoint_hit s hf hr hm,
        exec_checkBreakpoint_hit t hf' hr' (by rw [hpc, hbp]; exact hm), ?_⟩
      rw [hpc]
      exact (h.log _).respond _ _
    · refine ⟨_, _, exec_checkBreakpoint_miss s hf hr hm,
        exec_checkBreakpoint_miss t hf' hr' (by rw [hpc, hbp]; exact hm), ?_⟩
      rw [hpc]
      exact (h.log _).respond _ _

theorem exec_alike (i : Instr) (h : Alike s₀ t₀ s.begin t.begin) : AlikeOutcomes s₀ t₀ (exec i s) (exec i t) := by
  obtain ⟨hfault, -⟩ : t.fault = s.fault ∧ _ := h.registers
  cases hf : s.fault with
  | true => exact ⟨_, _, exec_of_fault s i hf, exec_of_fault t i (hfault.trans hf), h.refuse⟩
  | false =>
    have hf' := hfault.trans hf
    cases i with
    | step => exact exec_step_alike h hf hf'
    | frame => exact exec_frame_alike h hf hf'
    | addBreakpoint a => exact exec_addBreakpoint_alike a h hf hf'
    | checkBreakpoint => exact exec_checkBreakpoint_alike h hf hf'

/-! ### Loop tests of states alike -/

theorem loopReturns_of_not_loopsOn {s : State} (hr : s.returns .displayState = true) (ho : s.loopsOn = false) :
    s.loopReturns = true := by
  rw [State.loopReturns, hr, ho]
  rfl

theorem step_loop_alike (h : Alike s₀ t₀ s t) (hp : t.phase = s.phase) (hi : s.inLoop = true) :
    AlikeOutcomes s₀ t₀ (step s) (step t) := by
  obtain ⟨-, -, -, hworld⟩ := h.registers
  have hlevel : t.displayLevel = s.displayLevel := congrArg (fun w : World => w.io.display.level) hworld
  have hi' : t.inLoop = true := by rw [State.inLoop, hp]; exact hi
  have hread : Alike s₀ t₀ s.readLevel t.readLevel := by
    show Alike s₀ t₀ (s.log _) (t.log _)
    rw [hlevel]
    exact h.log _
  have hret : ∀ {c}, t.returns c = s.returns c := h.returns
  have hloops : t.loopsOn = s.loopsOn := by rw [State.loopsOn, hp, hlevel]; rfl
  obtain ⟨v, et⟩ := step_total t
  rcases step_loop_cases s hi with ⟨hr, es⟩ | ⟨hr, h2, hv, ho, es⟩ | ⟨hr, h3, hv, ho, es⟩ | ⟨hr, ho, -, -, es⟩
  · exact ⟨_, _, es, step_of_levelStuck t hi' (hret.trans hr), h.hang _⟩
  · have hr' := loopReturns_of_not_loopsOn (hret.trans hr) (hloops.trans ho)
    rw [step_leaves_f2 (hp.trans h2) (hlevel.trans hv) hr' et] at et
    exact ⟨_, _, es, et, hread.atPhase .f3⟩
  · have hr' := loopReturns_of_not_loopsOn (hret.trans hr) (hloops.trans ho)
    rw [step_ends_f3 (hp.trans h3) (hlevel ▸ hv) hr' et] at et
    exact ⟨_, _, es, et, hread.respond .ok 0⟩
  · have et := step_of_loopsOn t hi' (hret.trans hr) (hloops.trans ho)
    rcases hread.stepBody with ⟨u, v, eu, ev, huv, hpu, hpv⟩ | ⟨u, v, info, eu, ev, huv⟩ | ⟨u, v, c, eu, ev, huv⟩ <;>
      rw [eu] at es <;> rw [ev] at et
    · exact ⟨_, _, es, et, huv, hpv.trans (hp.trans hpu.symm)⟩
    · exact ⟨_, _, es, et, huv.raiseFault info⟩
    · exact ⟨_, _, es, et, huv.hang c⟩

/-! ### What becomes of two states that differ in their transient registers -/

/-- Where callers and frames were the same, states alike differ in their transient registers only. -/
theorem AlikeEnd.lasting {u v : State} (h : AlikeEnd s₀ t₀ u v) (hc : t₀.caller = s₀.caller)
    (hp : t₀.presented = s₀.presented) : u.lasting = v.lasting := by
  obtain ⟨⟨g, d, rfl, huc, hgc, hup, hgp⟩, hphase⟩ := h
  have h1 : g.phase = u.phase := hphase
  have h2 : g.caller = u.caller := by rw [hgc, hc, huc]
  have h3 : g.presented = u.presented := by rw [hgp, hp, hup]
  simp only [State.lasting, State.withTransients, State.disguised, h1, h2, h3]

/-- A state and itself with other transient registers are alike. -/
theorem alike_withTransients (s : State) (i : IrqMask) (a b : Nat) (k : Bool) (tr : Option DisplayState) :
    Alike s s s (s.withTransients i a b k tr) :=
  ⟨⟨i, a, b, k, tr, s.phase, s.caller, s.presented⟩, [], rfl, rfl, rfl, (List.append_nil _).symm,
    (List.append_nil _).symm⟩

theorem step_idle_lasting (s : State) (hp : s.phase = .idle) (i : IrqMask) (a b : Nat) (k : Bool)
    (tr : Option DisplayState) :
    ∃ t u, step s = .next t ∧ step (s.withTransients i a b k tr) = .next u ∧ t.lasting = u.lasting := by
  have hp' : (s.withTransients i a b k tr).phase = .idle := hp
  cases hc : s.caller with
  | nil => exact ⟨_, _, step_noAction s hp hc, step_noAction _ hp' hc, rfl⟩
  | cons action rest =>
    cases action with
    | command w =>
      obtain ⟨u, v, eu, ev, h⟩ := exec_alike (s := { s with caller := rest })
        (t := { s.withTransients i a b k tr with caller := rest }) (decode s.build.addrW (BitVec.ofNat _ w))
        (alike_withTransients { s with caller := rest }.begin i a b k tr)
      exact ⟨u, v, (step_command s hp hc).trans eu, (step_command _ hp' hc).trans ev, h.lasting rfl rfl⟩
    | setWorld cpu ws io => exact ⟨_, _, step_setWorld s hp hc, step_setWorld _ hp' hc, rfl⟩
    | reset => exact ⟨_, _, step_callerResets s hp hc, step_callerResets _ hp' hc, rfl⟩

end

/-! ### No answer waits -/

/-- The environment in which only polled keys wait. -/
def quietEnvironment (keys : List KeyState) : Environment := { Environment.empty with polledKeys := keys }

theorem deterministic_iff (s : State) : s.deterministic = true ↔ ∃ keys, s.env = quietEnvironment keys := by
  rw [State.deterministic, decide_eq_true_iff]
  constructor
  · exact fun h => ⟨_, h⟩
  · rintro ⟨keys, h⟩
    rw [h]
    rfl

/-- No operation of a body queues an answer. -/
theorem keptByBody_quiet (keys : List KeyState) : KeptByBody (fun t => t.env = quietEnvironment keys) where
  phaseS1 h := h
  readStart h := congrArg Environment.returned h
  dmaTryWork h := by rw [dmaTryWork_env, h]; rfl
  dmaTook h := h
  askPending h := by rw [askPending_env, h]; rfl
  serviceInterrupt h := by rw [serviceInterrupt_env, h]; rfl
  setRunning h := by rw [setRunning_env, h]; rfl
  readHalt h := congrArg Environment.returned h
  cpuStep h := by rw [cpuStep_env, h]; rfl
  countElapsed h := congrArg Environment.returned h
  idleTick h := h
  timerAdvance h := by rw [timerAdvance_env, h]; rfl
  displayAdvance h := by rw [displayAdvance_env, h]; rfl
  readFramebuffer h := congrArg Environment.returned h
  present h := congrArg Environment.returned h
  notifyVblank h := by rw [notifyVblank_env, h]; rfl
  notifyHblank h := by rw [notifyHblank_env, h]; rfl
  mergeRequests h := by rw [mergeRequests_env, h]; rfl

section

variable {s : State} {keys : List KeyState} (h : s.env = quietEnvironment keys)

include h

theorem quiet_stepBody : s.stepBody.state.env = quietEnvironment keys := by
  rcases stepBody_reached s with ⟨t, e, k⟩ | ⟨t, info, e, k⟩ | ⟨t, c, e, k⟩ <;> rw [e] <;>
    exact k _ (keptByBody_quiet keys) h

theorem quiet_exec_step : ∃ t, exec .step s = .next t ∧ t.env = quietEnvironment keys := by
  cases hf : s.fault with
  | true => exact ⟨_, exec_of_fault s _ hf, h⟩
  | false =>
    rcases exec_step_reached s hf with ⟨t, e, k⟩ | ⟨t, info, e, k⟩ | ⟨t, c, e, k⟩ <;>
      exact ⟨_, e, k _ (keptByBody_quiet keys) h⟩

theorem quiet_pollInput : s.pollInput.env = quietEnvironment keys.tail := by
  rw [pollInput_env, h]
  rfl

theorem quiet_inputDone : s.inputDone.env = quietEnvironment keys.tail := by
  rw [State.inputDone, setKeyinput_env, quiet_pollInput h]
  rfl

theorem quiet_exec_frame : ∃ t keys', exec .frame s = .next t ∧ t.env = quietEnvironment keys' := by
  cases hf : s.fault with
  | true => exact ⟨_, _, exec_of_fault s _ hf, h⟩
  | false =>
    rcases exec_frame_cases s hf with ⟨-, e⟩ | ⟨pre, u, c, post, -, hc, -, -, e⟩
    · exact ⟨_, _, e, quiet_inputDone (s := s.begin) h⟩
    · rcases inputCalls_cases (mem_of_split hc) with rfl | rfl
      · exact ⟨_, _, e, h⟩
      · exact ⟨_, _, e, quiet_pollInput (s := s.begin) h⟩

theorem quiet_exec_addBreakpoint (a : Addr) :
    ∃ t, exec (.addBreakpoint a) s = .next t ∧ t.env = quietEnvironment keys := by
  cases hf : s.fault with
  | true => exact ⟨_, exec_of_fault s _ hf, h⟩
  | false =>
    by_cases ha : a ∈ s.bp
    · exact ⟨_, exec_addBreakpoint_duplicate s a hf ha, h⟩
    · by_cases hm : s.build.bpMax = some s.bp.length
      · exact ⟨_, exec_addBreakpoint_full s a hf ha hm, h⟩
      · exact ⟨_, exec_addBreakpoint_new s a hf ha hm, h⟩

theorem quiet_exec_checkBreakpoint : ∃ t, exec .checkBreakpoint s = .next t ∧ t.env = quietEnvironment keys := by
  have hret : s.env.returned = quietEnvironment keys := congrArg Environment.returned h
  cases hf : s.fault with
  | true => exact ⟨_, exec_of_fault s _ hf, h⟩
  | false =>
    cases hr : s.begin.returns .cpuNextPc with
    | false => exact ⟨_, exec_checkBreakpoint_stuck s hf hr, h⟩
    | true =>
      by_cases hm : s.nextPc ∈ s.bp
      · exact ⟨_, exec_checkBreakpoint_hit s hf hr hm, hret⟩
      · exact ⟨_, exec_checkBreakpoint_miss s hf hr hm, hret⟩

end

theorem exec_deterministic {s : State} (h : s.deterministic = true) (i : Instr) :
    ∃ t, exec i s = .next t ∧ t.deterministic = true := by
  simp only [deterministic_iff] at *
  obtain ⟨keys, h⟩ := h
  cases i with
  | step => exact (quiet_exec_step h).imp fun _ ⟨e, k⟩ => ⟨e, _, k⟩
  | frame =>
    obtain ⟨t, keys', e, k⟩ := quiet_exec_frame h
    exact ⟨t, e, keys', k⟩
  | addBreakpoint a => exact (quiet_exec_addBreakpoint h a).imp fun _ ⟨e, k⟩ => ⟨e, _, k⟩
  | checkBreakpoint => exact (quiet_exec_checkBreakpoint h).imp fun _ ⟨e, k⟩ => ⟨e, _, k⟩

theorem step_loop_deterministic {s : State} (h : s.deterministic = true) (hi : s.inLoop = true) :
    ∃ t, step s = .next t ∧ t.deterministic = true := by
  simp only [deterministic_iff] at *
  obtain ⟨keys, h⟩ := h
  have hread : s.readLevel.env = quietEnvironment keys := congrArg Environment.returned h
  rcases step_loop_cases s hi with ⟨-, e⟩ | ⟨-, -, -, -, e⟩ | ⟨-, -, -, -, e⟩ | ⟨-, -, -, -, e⟩
  · exact ⟨_, e, _, h⟩
  · exact ⟨_, e, _, hread⟩
  · exact ⟨_, e, _, hread⟩
  · exact ⟨_, e, _, quiet_stepBody hread⟩

/-- With no answer waiting, the same polled keys are the same environment. -/
theorem env_eq_of_deterministic {s t : State} (hs : s.deterministic = true) (ht : t.deterministic = true)
    (h : SameInputs s t) : s.env = t.env := by
  have hs : s.env = quietEnvironment s.env.polledKeys := of_decide_eq_true hs
  have ht : t.env = quietEnvironment t.env.polledKeys := of_decide_eq_true ht
  rw [hs, ht, h.keys]

/-- States with the same inputs, environments, traces and responses are alike. -/
theorem alike_of_sameInputs {s t : State} (h : SameInputs s t) (he : s.env = t.env) (htr : s.trace = t.trace)
    (hr : s.response = t.response) : Alike s t s t := by
  refine ⟨⟨t.irqAcc, t.start, t.elapsed, t.took, t.trans, t.phase, t.caller, t.presented⟩, [], ?_, rfl, rfl,
    (List.append_nil _).symm, (List.append_nil _).symm⟩
  obtain ⟨h1, h2, h3, h4, h5, -, h7⟩ := h
  simp only [State.disguised, h1, h2, h3, h4, h5, h7, he, htr, hr]

theorem AlikeEnd.sameBehaviour {s₀ t₀ u v : State} (h : AlikeEnd s₀ t₀ u v) : SameBehaviour u v := by
  obtain ⟨⟨g, d, rfl, -⟩, hp⟩ := h
  exact ⟨⟨rfl, rfl, rfl, rfl, rfl, rfl, rfl⟩, rfl, rfl, hp.symm⟩

end State

open State

/-! ### The statements -/

/-- Settles O30: states that differ in their transient registers are alike, and the caller's turn, a loop test and a stuck
command each leave them alike (`exec_alike`, `step_loop_alike`). -/
theorem transientRegistersCarryNothingBetweenSteps : Obligations.TransientRegistersCarryNothingBetweenSteps := by
  unfold Obligations.TransientRegistersCarryNothingBetweenSteps
  intro s i a b k tr
  rcases phase_cases s with hp | hl | ⟨c, hc⟩
  · exact step_idle_lasting s hp i a b k tr
  · obtain ⟨u, v, eu, ev, h⟩ := step_loop_alike (alike_withTransients s i a b k tr) rfl hl
    exact ⟨u, v, eu, ev, h.lasting rfl rfl⟩
  · exact ⟨_, _, step_stuck s hc, step_stuck (s.withTransients i a b k tr) hc, rfl⟩

/-- Settles O46: with no answer waiting, the same inputs are the same environment, so the two states are alike and end
alike (`exec_alike`, `step_loop_alike`), and no command or loop test queues an answer. -/
theorem equalWorldsGiveEqualTraces : Obligations.EqualWorldsGiveEqualTraces := by
  unfold Obligations.EqualWorldsGiveEqualTraces
  intro s t hs ht
  refine ⟨fun h i => ?command, fun h hi => ?loop⟩
  case command =>
    have hbegin : SameInputs s.begin t.begin :=
      ⟨h.world, h.bp, h.fault, h.faultInfo, h.build, h.keys, h.draws⟩
    have henv := env_eq_of_deterministic hs ht h
    obtain ⟨u, v, eu, ev, huv⟩ := exec_alike i (alike_of_sameInputs hbegin henv rfl rfl)
    obtain ⟨u', eu', hu⟩ := exec_deterministic hs i
    obtain ⟨v', ev', hv⟩ := exec_deterministic ht i
    cases eu.symm.trans eu'
    cases ev.symm.trans ev'
    exact ⟨u, v, eu, ev, huv.sameBehaviour, hu, hv⟩
  case loop =>
    obtain ⟨hin, htr, hr, hp⟩ := h
    have hi' : t.inLoop = true := by rw [State.inLoop, ← hp]; exact hi
    obtain ⟨u, v, eu, ev, huv⟩ :=
      step_loop_alike (alike_of_sameInputs hin (env_eq_of_deterministic hs ht hin) htr hr) hp.symm hi
    obtain ⟨u', eu', hu⟩ := step_loop_deterministic hs hi
    obtain ⟨v', ev', hv⟩ := step_loop_deterministic ht hi'
    cases eu.symm.trans eu'
    cases ev.symm.trans ev'
    exact ⟨u, v, eu, ev, huv.sameBehaviour, hu, hv⟩

end Sys2Proof.Machine
end
